-- ==== Sys2Proof/Word.lean ====
section
/-! DEFINITION. The words and levels of the Rotator axis block: register words, bytes, digital levels. -/

namespace Sys2Proof

/-- A 32-bit register word (10_state.md section 2: "Each register is 32 bits wide"). -/
abbrev Word := BitVec 32

/-- One byte, as a host bridge presents a register (R55); also the 8-bit byte address `ADDR[7:0]` (R50). -/
abbrev Byte := BitVec 8

/-- A digital level: `true` is HIGH = 1, `false` is LOW = 0 (R10). -/
abbrev Level := Bool

end Sys2Proof
end

