-- ==== Sys2Proof/Syntax.lean ====
section
/-! DEFINITION. The two input formats (R70 bus request, R73 pin record), the actions of the three decode tables (R74, R75, R76) and the operations of opcode_table.json: `Instr`, one constructor per row. -/

namespace Sys2Proof

/-- The axis number `n`: axis 0 is azimuth, axis 1 is elevation (R4, D7). -/
inductive Axis where
  | azimuth
  | elevation
deriving DecidableEq, Repr, Inhabited

/-- The number `n` of an axis. -/
def Axis.index : Axis → Nat
  | .azimuth => 0
  | .elevation => 1

/-- The three levels of one axis in one cycle: phase A, phase B, and the active-low home-limit level (R73). -/
structure AxisLevels where
  qa : Level
  qb : Level
  homeN : Level
deriving DecidableEq, Repr, Inhabited

/-- The levels of a cycle for both axes; a build with one axis uses only axis 0's (R73). -/
structure PinLevels where
  azimuth : AxisLevels
  elevation : AxisLevels
deriving DecidableEq, Repr, Inhabited

/-- The levels of one axis. -/
def PinLevels.level (p : PinLevels) : Axis → AxisLevels
  | .azimuth => p.azimuth
  | .elevation => p.elevation

/-- The levels with those of axis `n` replaced. -/
def PinLevels.setLevel (p : PinLevels) (n : Axis) (q : AxisLevels) : PinLevels :=
  match n with
  | .azimuth => { p with azimuth := q }
  | .elevation => { p with elevation := q }

/-- A bus request: the 9-bit code (`WE`, `ADDR[7:0]`) and `WDATA` (R70). -/
structure Request where
  code : BitVec 9
  wdata : Word
deriving DecidableEq, Repr, Inhabited

/-- Everything the outside world presents in one clock cycle: the block reset, the request (`none` is `REQ_V = 0`)
and the pin levels at the input of the synchronisers (R11, R70, R73, R39). -/
structure CycleInput where
  rst : Bool
  req : Option Request
  pins : PinLevels
deriving DecidableEq, Repr, Inhabited

/-- The rows of the quadrature decode table (R74), with the bits a row leaves open. -/
inductive QdAction where
  | noSample (aPrev qa qb : Level)
  | inc
  | dec
  | holdLow (qb : Level)
  | holdHigh (qa qb : Level)
deriving DecidableEq, Repr

/-- The rows of the home decode table (R75). -/
inductive HomeAction where
  | fall
  | rise
  | holdLow
  | holdHigh
deriving DecidableEq, Repr

/-- The rows of the driver class table (R76), each with the clamped command `c` that selects it. -/
inductive DriveClass where
  | stop (c : Int)
  | forward (c : Int)
  | reverse (c : Int)
deriving DecidableEq, Repr

/-- The operations of opcode_table.json, one constructor per row. -/
inductive Instr where
  /-- RD_POS, R108. -/
  | rdPos (n : Axis)
  /-- WR_POS, R109. -/
  | wrPos (n : Axis) (wdata : Word)
  /-- RD_STAT, R135. -/
  | rdStat (n : Axis)
  /-- WR_STAT, R136. -/
  | wrStat (n : Axis) (wdata : Word)
  /-- RD_SPEED, R159. -/
  | rdSpeed (n : Axis)
  /-- WR_SPEED, R158. -/
  | wrSpeed (n : Axis) (wdata : Word)
  /-- RD_DRV, R160. -/
  | rdDrv (n : Axis)
  /-- WR_DRV, R161. -/
  | wrDrv (n : Axis) (wdata : Word)
  /-- RD_CFG, R180. -/
  | rdCfg
  /-- WR_CFG, R181. -/
  | wrCfg (wdata : Word)
  /-- RD_POLL, R182. -/
  | rdPoll
  /-- WR_POLL, R107. -/
  | wrPoll (wdata : Word)
  /-- RD_UNMAPPED, R183. -/
  | rdUnmapped (addr : Byte)
  /-- WR_UNMAPPED, R184. -/
  | wrUnmapped (addr : Byte) (wdata : Word)
  /-- IDLE, R185. -/
  | idle
  /-- QD_NOSAMPLE, R100 (row `0xxx`). -/
  | qdNosample (n : Axis) (aPrev qa qb : Level)
  /-- QD_INC, R101 (row `1011`). -/
  | qdInc (n : Axis)
  /-- QD_DEC, R102 (row `1010`). -/
  | qdDec (n : Axis)
  /-- QD_HOLD, R103, the row `100x`: A stays low. -/
  | qdHoldLow (n : Axis) (qb : Level)
  /-- QD_HOLD, R103, the row `11xx`: A stays high or falls. -/
  | qdHoldHigh (n : Axis) (qa qb : Level)
  /-- HOME_FALL, R130 (row `10`). -/
  | homeFall (n : Axis)
  /-- HOME_RISE, R131 (row `01`). -/
  | homeRise (n : Axis)
  /-- HOME_HOLD, R132, the row `00`. -/
  | homeHoldLow (n : Axis)
  /-- HOME_HOLD, R132, the row `11`. -/
  | homeHoldHigh (n : Axis)
  /-- DRV_STOP, R151 to R153: `-10 <= c <= 10`. -/
  | drvStop (n : Axis) (c : Int)
  /-- DRV_FWD, R154 and R156: `11 <= c <= 255`. -/
  | drvFwd (n : Axis) (c : Int)
  /-- DRV_REV, R155 and R157: `-255 <= c <= -11`. -/
  | drvRev (n : Axis) (c : Int)
deriving DecidableEq, Repr

/-- An encoded operation, in the format its decode table reads: a bus request or its absence (R70), the four
quadrature bits of an axis (R74), the two home bits of an axis (R75), the command word of an axis (R76). -/
inductive Encoded where
  | bus (req : Option Request)
  | qdec (n : Axis) (bits : BitVec 4)
  | home (n : Axis) (bits : BitVec 2)
  | drive (n : Axis) (wdata : Word)
deriving DecidableEq, Repr

end Sys2Proof
end

