-- ==== Sys2Proof/Config.lean ====
section
/-! DEFINITION. The build parameters (R4), the document's presets (R6), the fixed constants (R5) and the one free value: the input of a cycle that nothing gives. -/

namespace Sys2Proof

/-- `N_AXES` (R4). -/
inductive NAxes where
  | one
  | two
deriving DecidableEq, Repr

/-- The number of axes. -/
def NAxes.toNat : NAxes → Nat
  | .one => 1
  | .two => 2

/-- `SAMPLE_MODE` (R4). -/
inductive SampleMode where
  | polled
  | continuous
deriving DecidableEq, Repr

/-- `WRAP_MODE` (R4). -/
inductive WrapMode where
  | mod
  | native
deriving DecidableEq, Repr

/-- `WIRING` (R4): one value for every axis of a build. -/
inductive Wiring where
  | twoEnable
  | twoDirection
deriving DecidableEq, Repr

/-- The parameters a build fixes (R4). -/
structure Build where
  nAxes : NAxes
  sampleMode : SampleMode
  wrapMode : WrapMode
  wiring : Wiring
  syncStages : Nat
deriving DecidableEq, Repr

/-- Axis `n` is built: `n < N_AXES` (R51, R71 steps 2 and 3). -/
def NAxes.has (k : NAxes) (n : Axis) : Bool := decide (n.index < k.toNat)

namespace Config

/-- `SPEED_MAX` (R5). -/
abbrev speedMax : Int := 255

/-- `DUTY_MAX` (R5). -/
abbrev dutyMax : Int := 255

/-- `DEADZONE` (R5). -/
abbrev deadzone : Int := 10

/-- `WRAP_MOD` (R5). -/
abbrev wrapMod : Int := 1000000

/-- `POS_WIDTH` (R5). -/
abbrev posWidth : Nat := 32

/-- The default of `SYNC_STAGES` (R4). -/
def syncStagesDefault : Nat := 2

/-- The preset `SINGLE_AXIS` (R6), in either wiring. -/
def singleAxis (w : Wiring) : Build :=
  { nAxes := .one, sampleMode := .polled, wrapMode := .mod, wiring := w, syncStages := syncStagesDefault }

/-- The preset `DUAL_AXIS` (R6), in either wiring. -/
def dualAxis (w : Wiring) : Build :=
  { nAxes := .two, sampleMode := .continuous, wrapMode := .native, wiring := w, syncStages := syncStagesDefault }

/-- The build of `State.reset`. DESIGN CHOICE (log 1, unsafe): the spec fixes no build. Claims quantify over every build. -/
def resetBuild : Build := dualAxis .twoEnable

/-- The levels before anything drives the pins: `qa = 0`, `qb = 0`, `home_n = 1` (95_test_vectors.md section 3). -/
def quietLevels : AxisLevels := { qa := false, qb := false, homeN := true }

/-- The quiet levels on both axes. -/
def quietPins : PinLevels := { azimuth := quietLevels, elevation := quietLevels }

/-- A FREE VALUE (log 2, safe): the input of cycle `t` when the list of pending inputs is used up. The request, the
reset and the pins of a cycle are unconstrained inputs (93_implementation_defined.md, "any value"; R73), so nothing
in Lean can say which they are. -/
opaque freeInput : Nat → CycleInput

end Config

/-- The position register: `POS_WIDTH` bits, two's complement (R5, R21). -/
abbrev Position := BitVec Config.posWidth

end Sys2Proof
end

