-- ==== Sys2Proof/Machine/Operands.lean ====
section
/-! DEFINITION. The arithmetic of the block (R8), the position wrap (R105, R106), the drive function (R150 to R157), the driver classes (R76) and the CFG word (R34). -/

namespace Sys2Proof.Machine

/-- `sint32(w)`: the word read as two's complement (R8). -/
def sint32 (w : Word) : Int := w.toInt

/-- `word32(i)`: the integer reduced modulo 2^32 (R8). -/
def word32 (i : Int) : Word := BitVec.ofInt 32 i

/-- `clamp(x, lo, hi)` (R8). -/
def clamp (x lo hi : Int) : Int := if x < lo then lo else if x > hi then hi else x

/-- `abs(x)` (R8). -/
def absInt (x : Int) : Int := if x ≥ 0 then x else -x

/-- `trem(x, m)`: the remainder of the division rounded toward zero (R8). -/
def trem (x m : Int) : Int := Int.tmod x m

/-- `wrapPos(v)` (R105 for `MOD`, R106 for `NATIVE`). -/
def wrapPos : WrapMode → Int → Int
  | .mod, v => trem v Config.wrapMod
  | .native, v => sint32 (word32 v)

/-- The position after a count of `d` (`+1` or `-1`): `wrapPos(pos + d)`, stored as a word (R101, R102). -/
def countPos (w : WrapMode) (pos : Position) (d : Int) : Position := word32 (wrapPos w (sint32 pos + d))

/-- The driver's output registers of one axis (R25). -/
structure Outputs where
  dir1 : Level
  dir2 : Level
  duty : BitVec 8
deriving DecidableEq, Repr

/-- A duty value as the 8-bit duty code. -/
def dutyCode (d : Int) : BitVec 8 := BitVec.ofInt 8 d

/-- The stop state (R152, R153). -/
def stopOutputs : Wiring → Outputs
  | .twoEnable => { dir1 := true, dir2 := false, duty := dutyCode Config.dutyMax }
  | .twoDirection => { dir1 := true, dir2 := true, duty := dutyCode 0 }

/-- Forward motion with magnitude `m` (R154: the duty is inverted, R156: the duty is the magnitude). -/
def forwardOutputs : Wiring → Int → Outputs
  | .twoEnable, m => { dir1 := true, dir2 := false, duty := dutyCode (Config.dutyMax - m) }
  | .twoDirection, m => { dir1 := true, dir2 := false, duty := dutyCode m }

/-- Reverse motion with magnitude `m` (R155, R157). -/
def reverseOutputs : Wiring → Int → Outputs
  | .twoEnable, m => { dir1 := false, dir2 := false, duty := dutyCode m }
  | .twoDirection, m => { dir1 := false, dir2 := true, duty := dutyCode m }

/-- Step 1 of the drive function: the clamped command (R150). -/
def clampSpeed (s : Int) : Int := clamp s (-Config.speedMax) Config.speedMax

/-- The drive function (R150 to R157, the pseudocode after R157). -/
def drive (w : Wiring) (s : Int) : Outputs :=
  let c := clampSpeed s
  let m := absInt c
  if m ≤ Config.deadzone then stopOutputs w
  else if c > 0 then forwardOutputs w m
  else reverseOutputs w m

/-- The driver class of a clamped command (R76). -/
def driveClass (c : Int) : DriveClass :=
  if c > Config.deadzone then .forward c
  else if c < -Config.deadzone then .reverse c
  else .stop c

/-- The outputs of a driver class (R76): `c` forward, `-c` reverse. -/
def classOutputs (w : Wiring) : DriveClass → Outputs
  | .stop _ => stopOutputs w
  | .forward c => forwardOutputs w c
  | .reverse c => reverseOutputs w (-c)

/-- CFG.WIRING (R34). -/
def wiringBit : Wiring → Bool
  | .twoEnable => false
  | .twoDirection => true

/-- CFG.SAMPLE_MODE (R34). -/
def sampleModeBit : SampleMode → Bool
  | .polled => false
  | .continuous => true

/-- CFG.WRAP_MODE (R34). -/
def wrapModeBit : WrapMode → Bool
  | .mod => false
  | .native => true

/-- The CFG word (R34, R180): SYNC_STAGES modulo 256 in 23:16, DEADZONE in 15:8, N_AXES in 5:4, then WRAP_MODE,
SAMPLE_MODE and WIRING in bits 2, 1, 0. -/
def cfgWord (b : Build) : Word :=
  (BitVec.ofNat 8 b.syncStages ++ BitVec.ofInt 8 Config.deadzone ++ 0#2 ++ BitVec.ofNat 2 b.nAxes.toNat ++ 0#1
    ++ BitVec.ofBool (wrapModeBit b.wrapMode) ++ BitVec.ofBool (sampleModeBit b.sampleMode)
    ++ BitVec.ofBool (wiringBit b.wiring)).setWidth 32

/-- Byte `k` of a register word on a host bridge: bits `8k+7 : 8k`, little-endian (R55). -/
def byteLane (w : Word) (k : Nat) : Byte := w.extractLsb' (8 * k) 8

end Sys2Proof.Machine
end

