-- ==== Sys2Proof/Machine/Flags.lean ====
section
/-! DEFINITION. The edge detectors' inputs: the sample enable (R100), the words the quadrature and home decode tables select on (R74, R75), and the home flag of a level (R130, R131). -/

namespace Sys2Proof.Machine

/-- The tracker's sample enable (R100), from the sample mode and whether the cycle's request is a WR_POLL. -/
def sampleEnable (mode : SampleMode) (polling : Bool) : Bool :=
  match mode with
  | .continuous => true
  | .polled => polling

/-- The selector of the quadrature decode table, `en, a_prev, qa, qb` from bit 3 down (R74). -/
def qdWord (en aPrev qa qb : Level) : BitVec 4 :=
  BitVec.ofBool en ++ BitVec.ofBool aPrev ++ BitVec.ofBool qa ++ BitVec.ofBool qb

/-- The selector of the home decode table, `hlvl_prev, home_n` from bit 1 down (R75). -/
def homeWord (hlvlPrev homeN : Level) : BitVec 2 := BitVec.ofBool hlvlPrev ++ BitVec.ofBool homeN

/-- The home flag a level stands for: `NOT home_n`, the input being active-low (R10, R130, R131). -/
def homeFlag (homeN : Level) : Bool := !homeN

end Sys2Proof.Machine
end

