-- ==== Sys2Proof/WellFormed.lean ====
section
/-! DEFINITION. Which operations a build's decode tables can give: the axis is built, an unmapped address is one that the address map (R51) does not name, a driver class holds a command of its range (R76). -/

namespace Sys2Proof

/-- The addresses the map of R51 names in a build (R52: axis 1's block only where there are two axes). -/
def mappedAddrs : NAxes → List Byte
  | .one => [0x00#8, 0x04#8, 0x08#8, 0x0C#8, 0x20#8, 0x24#8]
  | .two => [0x00#8, 0x04#8, 0x08#8, 0x0C#8, 0x10#8, 0x14#8, 0x18#8, 0x1C#8, 0x20#8, 0x24#8]

/-- Well-formedness of an operation in a build with `k` axes. -/
def wellFormed (k : NAxes) : Instr → Bool
  | .rdPos n => k.has n
  | .wrPos n _ => k.has n
  | .rdStat n => k.has n
  | .wrStat n _ => k.has n
  | .rdSpeed n => k.has n
  | .wrSpeed n _ => k.has n
  | .rdDrv n => k.has n
  | .wrDrv n _ => k.has n
  | .rdCfg => true
  | .wrCfg _ => true
  | .rdPoll => true
  | .wrPoll _ => true
  | .rdUnmapped addr => !(mappedAddrs k).contains addr
  | .wrUnmapped addr _ => !(mappedAddrs k).contains addr
  | .idle => true
  | .qdNosample n _ _ _ => k.has n
  | .qdInc n => k.has n
  | .qdDec n => k.has n
  | .qdHoldLow n _ => k.has n
  | .qdHoldHigh n _ _ => k.has n
  | .homeFall n => k.has n
  | .homeRise n => k.has n
  | .homeHoldLow n => k.has n
  | .homeHoldHigh n => k.has n
  | .drvStop n c => k.has n && decide (-Config.deadzone ≤ c ∧ c ≤ Config.deadzone)
  | .drvFwd n c => k.has n && decide (Config.deadzone < c ∧ c ≤ Config.speedMax)
  | .drvRev n c => k.has n && decide (-Config.speedMax ≤ c ∧ c < -Config.deadzone)

end Sys2Proof
end

