-- ==== Sys2Proof/Decode.lean ====
section
/-! DEFINITION. The decoder of each format (R71 and R72 for requests, R74, R75, R76 for the decode tables), the decoder of the opcode table's words, and the encoder. -/

namespace Sys2Proof

/-- The registers of an axis block, `r = ADDR[3:2]` (R71 step 2). -/
inductive AxisReg where
  | pos
  | stat
  | speed
  | drv
deriving DecidableEq, Repr

/-- What an address selects (R71). -/
inductive Target where
  | reg (n : Axis) (r : AxisReg)
  | cfg
  | poll
  | unmapped
deriving DecidableEq, Repr

/-- `n = ADDR[4]` (R71). -/
def addrAxis (addr : Byte) : Axis := if addr.getLsbD 4 then .elevation else .azimuth

/-- `r = ADDR[3:2]` (R71). -/
def addrReg (addr : Byte) : AxisReg :=
  match (addr.extractLsb' 2 2).toNat with
  | 0 => .pos
  | 1 => .stat
  | 2 => .speed
  | _ => .drv

/-- The address decode (R71), step by step; the first step that matches wins. -/
def decodeAddr (k : NAxes) (addr : Byte) : Target :=
  if addr.extractLsb' 0 2 ≠ 0#2 then .unmapped
  else if addr.extractLsb' 5 3 = 0#3 then
    if k.has (addrAxis addr) then .reg (addrAxis addr) (addrReg addr) else .unmapped
  else if addr = 0x20#8 then .cfg
  else if addr = 0x24#8 then .poll
  else .unmapped

/-- `WE = code[8]` (R70). -/
def requestWrites (r : Request) : Bool := r.code.getLsbD 8

/-- `ADDR = code[7:0]` (R70). -/
def requestAddr (r : Request) : Byte := r.code.extractLsb' 0 8

/-- The read operation of a target (R72). -/
def readInstr (addr : Byte) : Target → Instr
  | .reg n .pos => .rdPos n
  | .reg n .stat => .rdStat n
  | .reg n .speed => .rdSpeed n
  | .reg n .drv => .rdDrv n
  | .cfg => .rdCfg
  | .poll => .rdPoll
  | .unmapped => .rdUnmapped addr

/-- The write operation of a target (R72). -/
def writeInstr (addr : Byte) (wdata : Word) : Target → Instr
  | .reg n .pos => .wrPos n wdata
  | .reg n .stat => .wrStat n wdata
  | .reg n .speed => .wrSpeed n wdata
  | .reg n .drv => .wrDrv n wdata
  | .cfg => .wrCfg wdata
  | .poll => .wrPoll wdata
  | .unmapped => .wrUnmapped addr wdata

/-- The operation of a cycle's request; no request is IDLE (R70, R71, R185). -/
def decodeRequest (k : NAxes) : Option Request → Instr
  | none => .idle
  | some r =>
    if requestWrites r then writeInstr (requestAddr r) r.wdata (decodeAddr k (requestAddr r))
    else readInstr (requestAddr r) (decodeAddr k (requestAddr r))

/-- The quadrature decode table (R74) over the selector `en, a_prev, qa, qb`. -/
def decodeQd (bits : BitVec 4) : QdAction :=
  match bits.getLsbD 3, bits.getLsbD 2, bits.getLsbD 1, bits.getLsbD 0 with
  | false, aPrev, qa, qb => .noSample aPrev qa qb
  | true, false, true, true => .inc
  | true, false, true, false => .dec
  | true, false, false, qb => .holdLow qb
  | true, true, qa, qb => .holdHigh qa qb

/-- The home decode table (R75) over the selector `hlvl_prev, home_n`. -/
def decodeHome (bits : BitVec 2) : HomeAction :=
  match bits.getLsbD 1, bits.getLsbD 0 with
  | true, false => .fall
  | false, true => .rise
  | false, false => .holdLow
  | true, true => .holdHigh

/-- A quadrature action of axis `n`, as an operation. -/
def qdInstr (n : Axis) : QdAction → Instr
  | .noSample aPrev qa qb => .qdNosample n aPrev qa qb
  | .inc => .qdInc n
  | .dec => .qdDec n
  | .holdLow qb => .qdHoldLow n qb
  | .holdHigh qa qb => .qdHoldHigh n qa qb

/-- A latch action of axis `n`, as an operation. -/
def homeInstr (n : Axis) : HomeAction → Instr
  | .fall => .homeFall n
  | .rise => .homeRise n
  | .holdLow => .homeHoldLow n
  | .holdHigh => .homeHoldHigh n

/-- A driver class of axis `n`, as an operation. -/
def driveInstr (n : Axis) : DriveClass → Instr
  | .stop c => .drvStop n c
  | .forward c => .drvFwd n c
  | .reverse c => .drvRev n c

/-- The decoder, total: no encoding of any format is rejected ("No encoding traps", R78). -/
def decode (k : NAxes) : Encoded → Instr
  | .bus req => decodeRequest k req
  | .qdec n bits => qdInstr n (decodeQd bits)
  | .home n bits => homeInstr n (decodeHome bits)
  | .drive n wdata => driveInstr n (Machine.driveClass (Machine.clampSpeed (Machine.sint32 wdata)))

/-- The encoded operation names only built axes in its selector (requests carry any axis number). -/
def Encoded.present (k : NAxes) : Encoded → Bool
  | .bus _ => true
  | .qdec n _ => k.has n
  | .home n _ => k.has n
  | .drive n _ => k.has n

/-! ### The words of opcode_table.json -/

/-- Why a table word is no operation. -/
inductive DecodeError where
  /-- No format of the table has this width. -/
  | unknownWidth
  /-- A bit above the format's width is 1. -/
  | strayBits
  /-- `REQ_V = 1` with no request code. -/
  | requestWithoutCode
deriving DecidableEq, Repr

/-- A word of opcode_table.json, bit 0 its least significant bit, as an encoded operation. 9 bits (16 in whole bytes) are a
request code with WDATA = 0; 4 are the quadrature bits and 2 the home bits of axis 0; 1 is REQ_V. In 8 bits the
quadrature, home and REQ_V words cannot be told apart by width: 1, 2 and 3 are read as home bits, 0 and 4 to 15
as quadrature bits (DESIGN CHOICE, log 9). -/
def tableEncoded (nbits w : Nat) : Except DecodeError Encoded :=
  if nbits = 9 ∨ nbits = 16 then
    if w < 512 then .ok (.bus (some { code := BitVec.ofNat 9 w, wdata := 0#32 })) else .error .strayBits
  else if nbits = 8 then
    if w = 0 then .ok (.qdec .azimuth 0#4)
    else if w < 4 then .ok (.home .azimuth (BitVec.ofNat 2 w))
    else if w < 16 then .ok (.qdec .azimuth (BitVec.ofNat 4 w))
    else .error .strayBits
  else if nbits = 4 then
    if w < 16 then .ok (.qdec .azimuth (BitVec.ofNat 4 w)) else .error .strayBits
  else if nbits = 2 then
    if w < 4 then .ok (.home .azimuth (BitVec.ofNat 2 w)) else .error .strayBits
  else if nbits = 1 then
    if w = 0 then .ok (.bus none) else if w = 1 then .error .requestWithoutCode else .error .strayBits
  else .error .unknownWidth

/-- The operation of a table word, or the name of what is wrong with it. A table word has no build; the build of
`State.reset` is used, which has both axes (log 1). -/
def decodeTable (nbits w : Nat) : Except DecodeError Instr :=
  match tableEncoded nbits w with
  | .ok e => .ok (decode Config.resetBuild.nAxes e)
  | .error r => .error r

/-- The host's entry: the operation of a table word, `none` where it is none. -/
def decodeTableWord (nbits w : Nat) : Option Instr :=
  match decodeTable nbits w with
  | .ok i => some i
  | .error _ => none

/-! ### The encoder -/

/-- The address of a register of an axis (R51). -/
def axisAddr : Axis → AxisReg → Byte
  | .azimuth, .pos => 0x00#8
  | .azimuth, .stat => 0x04#8
  | .azimuth, .speed => 0x08#8
  | .azimuth, .drv => 0x0C#8
  | .elevation, .pos => 0x10#8
  | .elevation, .stat => 0x14#8
  | .elevation, .speed => 0x18#8
  | .elevation, .drv => 0x1C#8

/-- A read request (R70). WDATA is ignored by a read; the encoder leaves it 0. -/
def readRequest (addr : Byte) : Encoded := .bus (some { code := 0#1 ++ addr, wdata := 0#32 })

/-- A write request (R70). -/
def writeRequest (addr : Byte) (wdata : Word) : Encoded := .bus (some { code := 1#1 ++ addr, wdata := wdata })

/-- The encoder: the request of a bus operation (R72), the selector of a decode table's row (R74, R75), the command word of
a driver class (R76). -/
def encode : Instr → Encoded
  | .rdPos n => readRequest (axisAddr n .pos)
  | .wrPos n wdata => writeRequest (axisAddr n .pos) wdata
  | .rdStat n => readRequest (axisAddr n .stat)
  | .wrStat n wdata => writeRequest (axisAddr n .stat) wdata
  | .rdSpeed n => readRequest (axisAddr n .speed)
  | .wrSpeed n wdata => writeRequest (axisAddr n .speed) wdata
  | .rdDrv n => readRequest (axisAddr n .drv)
  | .wrDrv n wdata => writeRequest (axisAddr n .drv) wdata
  | .rdCfg => readRequest 0x20#8
  | .wrCfg wdata => writeRequest 0x20#8 wdata
  | .rdPoll => readRequest 0x24#8
  | .wrPoll wdata => writeRequest 0x24#8 wdata
  | .rdUnmapped addr => readRequest addr
  | .wrUnmapped addr wdata => writeRequest addr wdata
  | .idle => .bus none
  | .qdNosample n aPrev qa qb => .qdec n (Machine.qdWord false aPrev qa qb)
  | .qdInc n => .qdec n 0b1011#4
  | .qdDec n => .qdec n 0b1010#4
  | .qdHoldLow n qb => .qdec n (0b100#3 ++ BitVec.ofBool qb)
  | .qdHoldHigh n qa qb => .qdec n (0b11#2 ++ BitVec.ofBool qa ++ BitVec.ofBool qb)
  | .homeFall n => .home n 0b10#2
  | .homeRise n => .home n 0b01#2
  | .homeHoldLow n => .home n 0b00#2
  | .homeHoldHigh n => .home n 0b11#2
  | .drvStop n c => .drive n (Machine.word32 c)
  | .drvFwd n c => .drive n (Machine.word32 c)
  | .drvRev n c => .drive n (Machine.word32 c)

/-! ### The rows of opcode_table.json -/

/-- A row's match value and mask (R72, R74, R75). -/
structure Pattern where
  value : Nat
  mask : Nat
deriving DecidableEq, Repr

/-- The row of an operation; IDLE (`REQ_V = 0`) and the driver classes (a condition on `c`) have no bits. -/
def Instr.pattern : Instr → Option Pattern
  | .rdPos _ => some { value := 0x000, mask := 0x1EF }
  | .wrPos _ _ => some { value := 0x100, mask := 0x1EF }
  | .rdStat _ => some { value := 0x004, mask := 0x1EF }
  | .wrStat _ _ => some { value := 0x104, mask := 0x1EF }
  | .rdSpeed _ => some { value := 0x008, mask := 0x1EF }
  | .wrSpeed _ _ => some { value := 0x108, mask := 0x1EF }
  | .rdDrv _ => some { value := 0x00C, mask := 0x1EF }
  | .wrDrv _ _ => some { value := 0x10C, mask := 0x1EF }
  | .rdCfg => some { value := 0x020, mask := 0x1FF }
  | .wrCfg _ => some { value := 0x120, mask := 0x1FF }
  | .rdPoll => some { value := 0x024, mask := 0x1FF }
  | .wrPoll _ => some { value := 0x124, mask := 0x1FF }
  | .rdUnmapped _ => some { value := 0x000, mask := 0x100 }
  | .wrUnmapped _ _ => some { value := 0x100, mask := 0x100 }
  | .idle => none
  | .qdNosample _ _ _ _ => some { value := 0x0, mask := 0x8 }
  | .qdInc _ => some { value := 0xB, mask := 0xF }
  | .qdDec _ => some { value := 0xA, mask := 0xF }
  | .qdHoldLow _ _ => some { value := 0x8, mask := 0xE }
  | .qdHoldHigh _ _ _ => some { value := 0xC, mask := 0xC }
  | .homeFall _ => some { value := 0x2, mask := 0x3 }
  | .homeRise _ => some { value := 0x1, mask := 0x3 }
  | .homeHoldLow _ => some { value := 0x0, mask := 0x3 }
  | .homeHoldHigh _ => some { value := 0x3, mask := 0x3 }
  | .drvStop _ _ => none
  | .drvFwd _ _ => none
  | .drvRev _ _ => none

/-- The bits a row's match and mask are laid over. -/
def Encoded.tableBits : Encoded → Option Nat
  | .bus (some r) => some r.code.toNat
  | .bus none => none
  | .qdec _ bits => some bits.toNat
  | .home _ bits => some bits.toNat
  | .drive _ _ => none

end Sys2Proof
end

