-- ==== Sys2Proof/Machine/State.lean ====
section
/-! DEFINITION. The state (R20, R39), the stops, and the state right after reset (R221). -/

namespace Sys2Proof.Machine

/-- Why the machine stops with a fault. There is no constructor: "The block raises no exception" (R200), for any request or
any pin input. -/
inductive Fault where
deriving DecidableEq, Repr

/-- Why an operation has no meaning. -/
inductive Refusal where
  /-- Raised by `exec` alone, for an operation without a meaning. Safe: the model stops. Every arm has its meaning, so nothing
  raises it. -/
  | notModelled (mnemonic : String)
deriving DecidableEq, Repr

/-- The state of one axis (R20), and its input synchronisers (R39). -/
structure AxisState where
  /-- `pos[n]` (R21). -/
  pos : Position
  /-- `a_prev[n]` (R22). -/
  aPrev : Level
  /-- `home[n]` (R23). -/
  home : Bool
  /-- `hlvl_prev[n]` (R24). -/
  hlvlPrev : Level
  /-- `dir1[n]`, `dir2[n]`, `duty[n]` (R25). -/
  out : Outputs
  /-- The synchroniser stages, newest first: the pin levels of the last `SYNC_STAGES` cycles (R39). -/
  sync : List AxisLevels
deriving DecidableEq, Repr

/-- The state of the block. -/
structure State where
  /-- The build parameters (R4), which no step changes (log 1). -/
  build : Build
  /-- Axis 0 (R20). -/
  azimuth : AxisState
  /-- Axis 1, which is there exactly where `N_AXES = 2` (R20, R52). -/
  elevation : Option AxisState
  /-- The model's own field (log 3): the read data the last cycle returned (R11), `none` where it served no read. -/
  rdata : Option Word
  /-- The model's own field (log 2): the inputs of the coming cycles, oldest first (R11). -/
  pending : List CycleInput
  /-- The model's own field (log 2): picks the free input of a cycle that `pending` does not give. -/
  cycle : Nat
deriving DecidableEq, Repr

/-- An axis right after reset (R221). The synchronisers have no reset value; the quiet levels are a DESIGN CHOICE (log 5,
unsafe). -/
def AxisState.reset (b : Build) : AxisState :=
  { pos := 0#32, aPrev := false, home := false, hlvlPrev := false, out := stopOutputs b.wiring,
    sync := List.replicate b.syncStages Config.quietLevels }

/-- A build right after reset (R221). -/
def State.resetOf (b : Build) : State :=
  { build := b
    azimuth := AxisState.reset b
    elevation := match b.nAxes with
      | .one => none
      | .two => some (AxisState.reset b)
    rdata := none
    pending := []
    cycle := 0 }

/-- The machine right after reset, in the build `Config.resetBuild` (log 1). -/
def State.reset : State := State.resetOf Config.resetBuild

end Sys2Proof.Machine
end

