-- ==== Sys2Proof/Machine/Ops.lean ====
section
/-! DEFINITION. The named operations on the state: axis access, register words, the address map, the tracker's, latch's and driver's updates of an axis, sampling, the end of a cycle, the reset cycle, the output pins. The block has no exception (R200), so there is none to take here. -/

namespace Sys2Proof.Machine

/-! ### Axis access -/

/-- The state of axis `n`, where the build has it. -/
def State.axis? (s : State) : Axis → Option AxisState
  | .azimuth => some s.azimuth
  | .elevation => s.elevation

/-- Every axis updated, each by a function of its number and state. -/
def State.mapAxes (f : Axis → AxisState → AxisState) (s : State) : State :=
  { s with azimuth := f .azimuth s.azimuth, elevation := s.elevation.map (f .elevation) }

/-- Axis `n` updated; nothing where the build does not have it. -/
def State.updateAxis (n : Axis) (f : AxisState → AxisState) (s : State) : State :=
  match n with
  | .azimuth => { s with azimuth := f s.azimuth }
  | .elevation => { s with elevation := s.elevation.map f }

/-- The axes the build has, with their numbers. -/
def State.axisList (s : State) : List (Axis × AxisState) :=
  (.azimuth, s.azimuth) :: match s.elevation with
    | none => []
    | some e => [(.elevation, e)]

/-! ### Register words -/

/-- POS (R30): the position as a word. -/
def AxisState.posWord (a : AxisState) : Word := a.pos

/-- STAT (R31, R135): HOME, A_PREV, HLVL_PREV in bits 0, 1, 2. -/
def AxisState.statWord (a : AxisState) : Word :=
  (BitVec.ofBool a.hlvlPrev ++ BitVec.ofBool a.aPrev ++ BitVec.ofBool a.home).setWidth 32

/-- DRV (R33, R160): DUTY in 15:8, DIR2 and DIR1 in bits 1 and 0. -/
def AxisState.drvWord (a : AxisState) : Word :=
  (a.out.duty ++ 0#6 ++ BitVec.ofBool a.out.dir2 ++ BitVec.ofBool a.out.dir1).setWidth 32

/-- A word of axis `n`; 0 where the build does not have it (R52, R183). -/
def State.axisWord (s : State) (n : Axis) (f : AxisState → Word) : Word :=
  match s.axis? n with
  | some a => f a
  | none => 0#32

/-- The word a read of an address returns, row by row of the address map (R51); 0 elsewhere (R54, R183). The write-only
registers read 0 (R32, R35). -/
def State.readWord (s : State) (addr : Byte) : Word :=
  match addr.toNat with
  | 0x00 => s.axisWord .azimuth AxisState.posWord
  | 0x04 => s.axisWord .azimuth AxisState.statWord
  | 0x0C => s.axisWord .azimuth AxisState.drvWord
  | 0x10 => s.axisWord .elevation AxisState.posWord
  | 0x14 => s.axisWord .elevation AxisState.statWord
  | 0x1C => s.axisWord .elevation AxisState.drvWord
  | 0x20 => cfgWord s.build
  | _ => 0#32

/-- The byte at an address as a host bridge presents it, `A + k` being byte `k` of the register at `A` (R55). -/
def State.readByte (s : State) (addr : Byte) : Byte :=
  byteLane (s.readWord (addr &&& 0xFC#8)) (addr.toNat % 4)

/-! ### The read data -/

/-- The cycle's read data, `none` for a cycle that serves no read (R11, log 3). -/
def State.answer (r : Option Word) (s : State) : State := { s with rdata := r }

/-! ### The inputs of a cycle -/

/-- The input of this cycle: the oldest pending one, or a free one (R11, log 2). -/
def State.input (s : State) : CycleInput := s.pending.headD (Config.freeInput s.cycle)

/-- The synchronised sample of an axis (R73), from its pin levels in this cycle: the levels of `SYNC_STAGES` cycles ago (R227). -/
def AxisState.sample (raw : AxisLevels) (a : AxisState) : AxisLevels := a.sync.getLastD raw

/-- The synchroniser stages one cycle later. -/
def AxisState.shift (raw : AxisLevels) (a : AxisState) : AxisState := { a with sync := (raw :: a.sync).dropLast }

/-- The pin levels of axis `n` in this cycle, before the synchronisers. -/
def State.raw (s : State) (n : Axis) : AxisLevels := s.input.pins.level n

/-! ### The three units -/

/-- A row of the quadrature decode table on an axis (R74, R101 to R104). -/
def AxisState.applyQd (w : WrapMode) (act : QdAction) (a : AxisState) : AxisState :=
  match act with
  | .noSample _ _ _ => a
  | .inc => { a with pos := countPos w a.pos 1, aPrev := true }
  | .dec => { a with pos := countPos w a.pos (-1), aPrev := true }
  | .holdLow _ => { a with aPrev := false }
  | .holdHigh qa _ => { a with aPrev := qa }

/-- A row of the home decode table on an axis (R75, R130 to R133). In the hold rows `hlvl_prev` already equals the sample
(R132). -/
def AxisState.applyHome (act : HomeAction) (a : AxisState) : AxisState :=
  match act with
  | .fall => { a with home := homeFlag false, hlvlPrev := false }
  | .rise => { a with home := homeFlag true, hlvlPrev := true }
  | .holdLow => a
  | .holdHigh => a

/-- The tracker of axis `n` takes one action. -/
def State.track (n : Axis) (act : QdAction) (s : State) : State :=
  s.updateAxis n (AxisState.applyQd s.build.wrapMode act)

/-- The latch of axis `n` takes one action. -/
def State.latch (n : Axis) (act : HomeAction) (s : State) : State :=
  s.updateAxis n (AxisState.applyHome act)

/-- The driver of axis `n` takes new outputs, all three on the same clock edge (R158, R225). -/
def State.driveAxis (n : Axis) (o : Outputs) (s : State) : State :=
  s.updateAxis n (fun a => { a with out := o })

/-- The quadrature action an axis selects with its sample enable at `en` (R74). -/
def AxisState.qdAction (en : Bool) (q : AxisLevels) (a : AxisState) : QdAction :=
  decodeQd (qdWord en a.aPrev q.qa q.qb)

/-- The latch action an axis selects (R75). -/
def AxisState.homeAction (q : AxisLevels) (a : AxisState) : HomeAction :=
  decodeHome (homeWord a.hlvlPrev q.homeN)

/-- Every axis takes one phase sample in this cycle (R107: "for each n < N_AXES: en[n] = 1 this cycle"). -/
def State.samplePhases (s : State) : State :=
  s.mapAxes (fun n a => a.applyQd s.build.wrapMode (a.qdAction true (a.sample (s.raw n))))

/-! ### The end of a cycle, and the reset cycle -/

/-- The end of a cycle: the synchronisers shift (R39), the cycle's input is used up. -/
def State.advance (s : State) : State :=
  { s.mapAxes (fun n a => a.shift (s.raw n)) with pending := s.pending.tail, cycle := s.cycle + 1 }

/-- The reset state of an axis's elements (R221); the synchronisers are not reset (R39, R221). -/
def AxisState.resetRegs (b : Build) (a : AxisState) : AxisState := { AxisState.reset b with sync := a.sync }

/-- The read data of a reset cycle: a read returns 0 (R220). -/
def resetAnswer : Option Request → Option Word
  | none => none
  | some r => if requestWrites r then none else some 0#32

/-- A cycle with `rst = 1` (R220, R221). -/
def State.resetCycle (s : State) : State :=
  ((s.mapAxes (fun _ a => a.resetRegs s.build)).answer (resetAnswer s.input.req)).advance

/-! ### The output pins -/

/-- The pins of one axis (R162), by wiring scheme; `pwm` is the duty code. -/
inductive OutputPins where
  | twoEnable (dir : Level) (pwm : BitVec 8)
  | twoDirection (dir1 dir2 : Level) (pwm : BitVec 8)
deriving DecidableEq, Repr

/-- The pins the output registers drive (R162). -/
def outputPins (w : Wiring) (o : Outputs) : OutputPins :=
  match w with
  | .twoEnable => .twoEnable o.dir1 o.duty
  | .twoDirection => .twoDirection o.dir1 o.dir2 o.duty

/-- The pins of axis `n`, where the build has it. -/
def State.pins (s : State) (n : Axis) : Option OutputPins :=
  (s.axis? n).map (fun a => outputPins s.build.wiring a.out)

end Sys2Proof.Machine
end

