-- ==== Sys2Proof/Machine/BusConfig.lean ====
section
/-! DEFINITION. The requests that belong to no unit (43_bus_config.md): RD_CFG, WR_CFG, RD_POLL, RD_UNMAPPED, WR_UNMAPPED, IDLE. -/

namespace Sys2Proof.Machine

/-- RD_CFG (R180). -/
def execRdCfg (s : State) : Host.Outcome State Fault Refusal := .next (s.answer (some (cfgWord s.build)))

/-- WR_CFG (R181): ignored. -/
def execWrCfg (_wdata : Word) (s : State) : Host.Outcome State Fault Refusal := .next (s.answer none)

/-- RD_POLL (R182): returns 0 and does not poll. -/
def execRdPoll (s : State) : Host.Outcome State Fault Refusal := .next (s.answer (some 0#32))

/-- RD_UNMAPPED (R183): returns 0. -/
def execRdUnmapped (_addr : Byte) (s : State) : Host.Outcome State Fault Refusal := .next (s.answer (some 0#32))

/-- WR_UNMAPPED (R184): ignored. -/
def execWrUnmapped (_addr : Byte) (_wdata : Word) (s : State) : Host.Outcome State Fault Refusal :=
  .next (s.answer none)

/-- IDLE (R185): no bus effect; the cycle's pin sampling is the tracker's and the latch's rows of the cycle. -/
def execIdle (s : State) : Host.Outcome State Fault Refusal := .next (s.answer none)

end Sys2Proof.Machine
end

