-- ==== Sys2Proof/Machine/HomeLatch.lean ====
section
/-! DEFINITION. The home-state latch (41_home_latch.md): its actions and RD_STAT, WR_STAT. -/

namespace Sys2Proof.Machine

/-- HOME_FALL (R130). -/
def execHomeFall (n : Axis) (s : State) : Host.Outcome State Fault Refusal := .next (s.latch n .fall)

/-- HOME_RISE (R131). -/
def execHomeRise (n : Axis) (s : State) : Host.Outcome State Fault Refusal := .next (s.latch n .rise)

/-- HOME_HOLD, row `00` (R132). -/
def execHomeHoldLow (n : Axis) (s : State) : Host.Outcome State Fault Refusal := .next (s.latch n .holdLow)

/-- HOME_HOLD, row `11` (R132). -/
def execHomeHoldHigh (n : Axis) (s : State) : Host.Outcome State Fault Refusal := .next (s.latch n .holdHigh)

/-- RD_STAT (R135). -/
def execRdStat (n : Axis) (s : State) : Host.Outcome State Fault Refusal :=
  .next (s.answer (some (s.axisWord n AxisState.statWord)))

/-- WR_STAT (R136): ignored. -/
def execWrStat (_n : Axis) (_wdata : Word) (s : State) : Host.Outcome State Fault Refusal := .next (s.answer none)

end Sys2Proof.Machine
end

