-- ==== Sys2Proof/Machine/MotorDriver.lean ====
section
/-! DEFINITION. The motor driver abstraction (42_motor_driver.md): its classes and WR_SPEED, RD_SPEED, RD_DRV, WR_DRV. -/

namespace Sys2Proof.Machine

/-- DRV_STOP (R151 to R153): the stop state of the build's wiring. -/
def execDrvStop (n : Axis) (c : Int) (s : State) : Host.Outcome State Fault Refusal :=
  .next (s.driveAxis n (classOutputs s.build.wiring (.stop c)))

/-- DRV_FWD (R154, R156). -/
def execDrvFwd (n : Axis) (c : Int) (s : State) : Host.Outcome State Fault Refusal :=
  .next (s.driveAxis n (classOutputs s.build.wiring (.forward c)))

/-- DRV_REV (R155, R157). -/
def execDrvRev (n : Axis) (c : Int) (s : State) : Host.Outcome State Fault Refusal :=
  .next (s.driveAxis n (classOutputs s.build.wiring (.reverse c)))

/-- WR_SPEED (R158): `drive(sint32(WDATA))` into the output registers of the axis. -/
def execWrSpeed (n : Axis) (wdata : Word) (s : State) : Host.Outcome State Fault Refusal :=
  .next ((s.driveAxis n (drive s.build.wiring (sint32 wdata))).answer none)

/-- RD_SPEED (R159): the command is not stored, the read returns 0. -/
def execRdSpeed (_n : Axis) (s : State) : Host.Outcome State Fault Refusal := .next (s.answer (some 0#32))

/-- RD_DRV (R160). -/
def execRdDrv (n : Axis) (s : State) : Host.Outcome State Fault Refusal :=
  .next (s.answer (some (s.axisWord n AxisState.drvWord)))

/-- WR_DRV (R161): ignored. -/
def execWrDrv (_n : Axis) (_wdata : Word) (s : State) : Host.Outcome State Fault Refusal := .next (s.answer none)

end Sys2Proof.Machine
end

