-- ==== Sys2Proof/Machine/Quadrature.lean ====
section
/-! DEFINITION. The quadrature position tracker (40_quadrature.md): its decode actions and WR_POLL, RD_POS, WR_POS. -/

namespace Sys2Proof.Machine

/-- QD_NOSAMPLE (R100): nothing changes. -/
def execQdNosample (n : Axis) (aPrev qa qb : Level) (s : State) : Host.Outcome State Fault Refusal :=
  .next (s.track n (.noSample aPrev qa qb))

/-- QD_INC (R101). -/
def execQdInc (n : Axis) (s : State) : Host.Outcome State Fault Refusal := .next (s.track n .inc)

/-- QD_DEC (R102). -/
def execQdDec (n : Axis) (s : State) : Host.Outcome State Fault Refusal := .next (s.track n .dec)

/-- QD_HOLD, row `100x` (R103). -/
def execQdHoldLow (n : Axis) (qb : Level) (s : State) : Host.Outcome State Fault Refusal :=
  .next (s.track n (.holdLow qb))

/-- QD_HOLD, row `11xx` (R103). -/
def execQdHoldHigh (n : Axis) (qa qb : Level) (s : State) : Host.Outcome State Fault Refusal :=
  .next (s.track n (.holdHigh qa qb))

/-- WR_POLL (R107): in `POLLED` mode every axis takes one phase sample in this cycle; in `CONTINUOUS` mode the request has
no effect of its own. `WDATA` is ignored. -/
def execWrPoll (_wdata : Word) (s : State) : Host.Outcome State Fault Refusal :=
  match s.build.sampleMode with
  | .polled => .next (s.samplePhases.answer none)
  | .continuous => .next (s.answer none)

/-- RD_POS (R108). -/
def execRdPos (n : Axis) (s : State) : Host.Outcome State Fault Refusal :=
  .next (s.answer (some (s.axisWord n AxisState.posWord)))

/-- WR_POS (R109): ignored. -/
def execWrPos (_n : Axis) (_wdata : Word) (s : State) : Host.Outcome State Fault Refusal := .next (s.answer none)

end Sys2Proof.Machine
end

