-- ==== Sys2Proof/Machine/Dispatch.lean ====
section
/-! DEFINITION. The dispatch: one arm per operation of opcode_table.json, each one call of its meaning. -/

namespace Sys2Proof.Machine

def exec (i : Instr) (s : State) : Host.Outcome State Fault Refusal :=
  match i with
  | .rdPos n => Sys2Proof.Machine.execRdPos n s
  | .wrPos n wdata => Sys2Proof.Machine.execWrPos n wdata s
  | .rdStat n => Sys2Proof.Machine.execRdStat n s
  | .wrStat n wdata => Sys2Proof.Machine.execWrStat n wdata s
  | .rdSpeed n => Sys2Proof.Machine.execRdSpeed n s
  | .wrSpeed n wdata => Sys2Proof.Machine.execWrSpeed n wdata s
  | .rdDrv n => Sys2Proof.Machine.execRdDrv n s
  | .wrDrv n wdata => Sys2Proof.Machine.execWrDrv n wdata s
  | .rdCfg => Sys2Proof.Machine.execRdCfg s
  | .wrCfg wdata => Sys2Proof.Machine.execWrCfg wdata s
  | .rdPoll => Sys2Proof.Machine.execRdPoll s
  | .wrPoll wdata => Sys2Proof.Machine.execWrPoll wdata s
  | .rdUnmapped addr => Sys2Proof.Machine.execRdUnmapped addr s
  | .wrUnmapped addr wdata => Sys2Proof.Machine.execWrUnmapped addr wdata s
  | .idle => Sys2Proof.Machine.execIdle s
  | .qdNosample n aPrev qa qb => Sys2Proof.Machine.execQdNosample n aPrev qa qb s
  | .qdInc n => Sys2Proof.Machine.execQdInc n s
  | .qdDec n => Sys2Proof.Machine.execQdDec n s
  | .qdHoldLow n qb => Sys2Proof.Machine.execQdHoldLow n qb s
  | .qdHoldHigh n qa qb => Sys2Proof.Machine.execQdHoldHigh n qa qb s
  | .homeFall n => Sys2Proof.Machine.execHomeFall n s
  | .homeRise n => Sys2Proof.Machine.execHomeRise n s
  | .homeHoldLow n => Sys2Proof.Machine.execHomeHoldLow n s
  | .homeHoldHigh n => Sys2Proof.Machine.execHomeHoldHigh n s
  | .drvStop n c => Sys2Proof.Machine.execDrvStop n c s
  | .drvFwd n c => Sys2Proof.Machine.execDrvFwd n c s
  | .drvRev n c => Sys2Proof.Machine.execDrvRev n c s

end Sys2Proof.Machine
end

