-- ==== Sys2Proof/Machine/Cycle.lean ====
section
/-! DEFINITION. One clock cycle (R11, R202): the cycle's request, then the quadrature row and the home row of every axis, all selected from the state before the cycle. -/

namespace Sys2Proof.Machine

/-- Go on from a next state; a stop stays. -/
def andThen (o : Host.Outcome State Fault Refusal) (f : State → Host.Outcome State Fault Refusal) :
    Host.Outcome State Fault Refusal :=
  match o with
  | .next s => f s
  | .fault r => .fault r
  | .refused r => .refused r

/-- Operations one after the other. -/
def runActions : List Instr → State → Host.Outcome State Fault Refusal
  | [], s => .next s
  | i :: is, s => andThen (exec i s) (runActions is)

/-- The operation of this cycle's request (R72, R185). -/
def State.request (s : State) : Instr := decode s.build.nAxes (.bus s.input.req)

/-- The operation is a WR_POLL (R100). -/
def isPoll : Instr → Bool
  | .wrPoll _ => true
  | _ => false

/-- The tracker's sample enable of this cycle (R100); it is the same for every axis. -/
def State.sampleEnabled (s : State) : Bool := sampleEnable s.build.sampleMode (isPoll s.request)

/-- This cycle's phase sample is the effect of its WR_POLL (R107). -/
def State.pollSamples (s : State) : Bool := s.build.sampleMode = .polled && isPoll s.request

/-- The quadrature rows of this cycle, one per axis (R74), decoded from the state before the cycle. Where a WR_POLL takes the
sample, the rows are part of that operation (R107, log 8) and do not run again ("never causes a second count"). -/
def State.trackerActions (s : State) : List Instr :=
  if s.pollSamples then []
  else s.axisList.map fun (n, a) =>
    decode s.build.nAxes (.qdec n (qdWord s.sampleEnabled a.aPrev (a.sample (s.raw n)).qa (a.sample (s.raw n)).qb))

/-- The home rows of this cycle, one per axis, whatever the request and the sample mode (R75, R134). -/
def State.latchActions (s : State) : List Instr :=
  s.axisList.map fun (n, a) => decode s.build.nAxes (.home n (homeWord a.hlvlPrev (a.sample (s.raw n)).homeN))

/-- Everything one cycle with `rst = 0` runs. -/
def State.cycleActions (s : State) : List Instr := s.request :: (s.trackerActions ++ s.latchActions)

/-- One clock cycle: reset wins (R202, R220); else the cycle's operations, and the end of the cycle. -/
def runCycle (s : State) : Host.Outcome State Fault Refusal :=
  if s.input.rst then .next s.resetCycle
  else andThen (runActions s.cycleActions s) (fun t => .next t.advance)

end Sys2Proof.Machine
end

