-- ==== Sys2Proof/Machine/Fetch.lean ====
section
/-! DEFINITION. Placing an encoded operation so that the next step runs it: as the request of the coming cycle, or as the selector of a decode table (log 10). -/

namespace Sys2Proof.Machine

/-- The pins of the coming cycle: those already pending, or quiet ones. -/
def State.comingPins (s : State) : PinLevels :=
  match s.pending with
  | [] => Config.quietPins
  | c :: _ => c.pins

/-- The coming cycle gets this request and no reset; its pins stay. -/
def State.placeRequest (req : Option Request) (s : State) : State :=
  { s with pending := { rst := false, req := req, pins := s.comingPins } :: s.pending.tail }

/-- The coming cycle gets these pins on axis `n`. -/
def State.placePins (n : Axis) (q : AxisLevels) (s : State) : State :=
  match s.pending with
  | [] => s
  | c :: cs => { s with pending := { c with pins := c.pins.setLevel n q } :: cs }

/-- The sample of axis `n` in the coming cycle becomes `q`: the oldest synchroniser stage, or the pins where there is none. -/
def State.placeSample (n : Axis) (q : AxisLevels) (s : State) : State :=
  if s.build.syncStages = 0 then s.placePins n q
  else s.updateAxis n (fun a => { a with sync := a.sync.dropLast ++ [q] })

/-- The sample of axis `n` in the coming cycle. -/
def State.comingSample (n : Axis) (s : State) : AxisLevels :=
  match s.axis? n with
  | some a => a.sample (s.comingPins.level n)
  | none => Config.quietLevels

/-- The sample mode in which the quadrature row with this `en` can be selected (R100): `en = 0` needs `POLLED`. -/
def modeFor (en : Bool) (mode : SampleMode) : SampleMode := if en then mode else .polled

/-- The request that selects `en`: in `POLLED` mode a WR_POLL for `en = 1`; else none (R100). -/
def requestFor (en : Bool) (mode : SampleMode) : Option Request :=
  match en, mode with
  | true, .polled => some { code := 0x124#9, wdata := 0#32 }
  | _, _ => none

/-- The quadrature selector placed on axis `n` (R74). -/
def State.placeQd (n : Axis) (bits : BitVec 4) (s : State) : State :=
  let mode := modeFor (bits.getLsbD 3) s.build.sampleMode
  let t := { s with build := { s.build with sampleMode := mode } }
  ((t.placeRequest (requestFor (bits.getLsbD 3) mode)).placeSample n
    { qa := bits.getLsbD 1, qb := bits.getLsbD 0, homeN := (s.comingSample n).homeN }).updateAxis n
    (fun a => { a with aPrev := bits.getLsbD 2 })

/-- The home selector placed on axis `n` (R75), in an idle cycle. -/
def State.placeHome (n : Axis) (bits : BitVec 2) (s : State) : State :=
  ((s.placeRequest none).placeSample n
    { s.comingSample n with homeN := bits.getLsbD 0 }).updateAxis n
    (fun a => { a with hlvlPrev := bits.getLsbD 1 })

/-- An encoded operation placed for the next step. A driver class is selected by the WR_SPEED that carries its word (R76). -/
def State.place (e : Encoded) (s : State) : State :=
  match e with
  | .bus req => s.placeRequest req
  | .qdec n bits => s.placeQd n bits
  | .home n bits => s.placeHome n bits
  | .drive n wdata => s.placeRequest (some { code := 1#1 ++ axisAddr n .speed, wdata := wdata })

/-- A table word placed for the next step; nothing where the word is no operation. -/
def State.placeTableWord (s : State) (nbits w : Nat) : State :=
  match tableEncoded nbits w with
  | .ok e => s.place e
  | .error _ => s

end Sys2Proof.Machine
end

