-- ==== Sys2Proof/Machine/Step.lean ====
section
/-! DEFINITION. The step, one clock cycle (R11), and the placing of a table word for it. -/

namespace Sys2Proof.Machine

/-- One step: one clock cycle (R11). -/
def step (s : State) : Host.Outcome State Fault Refusal := runCycle s

/-- The state whose next step runs a table word (log 10). -/
def State.withFetchWord (s : State) (nbits w : Nat) : State := s.placeTableWord nbits w

end Sys2Proof.Machine
end

