-- ==== Sys2Proof/Machine/Program.lean ====
section
/-! DEFINITION. The spec's own syntax for programs (R79), its pseudo-operations (R80), and the loading of a program as the inputs of the coming cycles. -/

namespace Sys2Proof.Machine

/-- A register name of R79. -/
inductive RegName where
  | reg (n : Axis) (r : AxisReg)
  | cfg
  | poll
  | raw (addr : Byte)
deriving DecidableEq, Repr

/-- `ADDR(REG)` (R79, R51). -/
def RegName.addr : RegName → Byte
  | .reg n r => axisAddr n r
  | .cfg => 0x20#8
  | .poll => 0x24#8
  | .raw addr => addr

/-- A line of a program (R79); in `pins` an omitted field is `none`. -/
inductive Line where
  | rd (r : RegName)
  | wr (r : RegName) (v : Int)
  | idle
  | reset
  | pins (n : Axis) (a b h : Option Level)
deriving DecidableEq, Repr

/-- `poll` (R80). -/
def Line.pollLine : Line := .wr .poll 0

/-- `stop n` (R80). -/
def Line.stopLine (n : Axis) : Line := .wr (.reg n .speed) 0

/-- `idle k` (R80). -/
def Line.idleLines (k : Nat) : List Line := List.replicate k .idle

/-- The levels after a `pins` line: the given fields take their values, an omitted field keeps its value (R79). -/
def pinsAfter (q : AxisLevels) (a b h : Option Level) : AxisLevels :=
  { qa := a.getD q.qa, qb := b.getD q.qb, homeN := h.getD q.homeN }

/-- The cycles of a program, each with its synchronised samples in `pins` (R79). -/
def assemble : PinLevels → List Line → List CycleInput
  | _, [] => []
  | p, .rd r :: ls => { rst := false, req := some { code := 0#1 ++ r.addr, wdata := 0#32 }, pins := p } :: assemble p ls
  | p, .wr r v :: ls =>
    { rst := false, req := some { code := 1#1 ++ r.addr, wdata := word32 v }, pins := p } :: assemble p ls
  | p, .idle :: ls => { rst := false, req := none, pins := p } :: assemble p ls
  | p, .reset :: ls => { rst := true, req := none, pins := p } :: assemble p ls
  | p, .pins n a b h :: ls => assemble (p.setLevel n (pinsAfter (p.level n) a b h)) ls

/-- The samples of the cycles, the last of them held for `k` more cycles. -/
def heldSamples (k : Nat) (cs : List CycleInput) : List PinLevels :=
  cs.map CycleInput.pins ++ List.replicate k ((cs.map CycleInput.pins).getLastD Config.quietPins)

/-- The machine with the cycles `cs` to come, whose `pins` are the SAMPLES of the cycles: the first `SYNC_STAGES` samples stand in
the synchronisers, and each later one is on the pins `SYNC_STAGES` cycles before its cycle (R227, log 14). -/
def State.load (cs : List CycleInput) (s : State) : State :=
  { s.mapAxes (fun n a => { a with
      sync := (((heldSamples s.build.syncStages cs).take s.build.syncStages).map (fun p => p.level n)).reverse }) with
    pending := List.zipWith (fun c p => { c with pins := p }) cs
      ((heldSamples s.build.syncStages cs).drop s.build.syncStages) }

/-- A program loaded: before its first `pins` line the samples are quiet (95_test_vectors.md section 3). -/
def State.loadProgram (ls : List Line) (s : State) : State := s.load (assemble Config.quietPins ls)

end Sys2Proof.Machine
end

