-- ==== Sys2Proof/Safety.lean ====
section
/-! DEFINITION. What a legal state is, in the terms the claims use: the state fits its build, and the spec's own invariants (R36, R37, R38) hold on every axis. And the cycle as R11 and R202 put it, every element's next value straight from the state before the cycle, for the step to be held against. -/

namespace Sys2Proof.Machine

/-- The state has the axes (R20, R52) and the synchroniser stages (R39) of its build. -/
def State.FitsBuild (s : State) : Prop :=
  (s.elevation.isSome = true ↔ s.build.nAxes = .two) ∧
  ∀ n a, s.axis? n = some a → a.sync.length = s.build.syncStages

/-- R37: in `MOD` mode the position lies strictly between `-WRAP_MOD` and `WRAP_MOD`. -/
def State.PosInRange (s : State) : Prop :=
  s.build.wrapMode = .mod → ∀ n a, s.axis? n = some a → -Config.wrapMod < sint32 a.pos ∧ sint32 a.pos < Config.wrapMod

/-- The flag is up only with the reference sample LOW (the part of R36 that one state shows). -/
def State.HomeConsistent (s : State) : Prop :=
  ∀ n a, s.axis? n = some a → a.home = true → a.hlvlPrev = false

/-- R38: the outputs are those of some speed command. -/
def State.OutputsDriven (s : State) : Prop :=
  ∀ n a, s.axis? n = some a → ∃ w : Word, a.out = drive s.build.wiring (sint32 w)

/-- A legal state. -/
structure State.Inv (s : State) : Prop where
  fits : s.FitsBuild
  pos : s.PosInRange
  home : s.HomeConsistent
  out : s.OutputsDriven

/-! ### The cycle, all updates at once -/

/-- The cycle serves this request, without reset. -/
def State.Serves (s : State) (code : BitVec 9) (wdata : Word) : Prop :=
  s.input.rst = false ∧ s.input.req = some { code := code, wdata := wdata }

/-- The request writes SPEED[n]: its WDATA (R72: code `0x108` or `0x118`). -/
def speedCommand (req : Option Request) (n : Axis) : Option Word :=
  match req, n with
  | some r, .azimuth => if r.code = 0x108#9 then some r.wdata else none
  | some r, .elevation => if r.code = 0x118#9 then some r.wdata else none
  | none, _ => none

/-- The request writes POLL (R72: code `0x124`). -/
def pollRequested : Option Request → Bool
  | some r => r.code = 0x124#9
  | none => false

/-- `Read(S_t, req)` (R11): the register word of a read request, from the state before the cycle. -/
def State.readData (s : State) : Option Word :=
  match s.input.req with
  | some r => if requestWrites r then none else some (s.readWord (requestAddr r))
  | none => none

/-- The next value of every element of an axis (R100 to R106, R130 to R133, R158, R39), from its state, its pin levels and the
cycle's speed command. -/
def AxisState.nextOf (b : Build) (en : Bool) (raw : AxisLevels) (cmd : Option Word) (a : AxisState) : AxisState :=
  { pos := if en && !a.aPrev && (a.sample raw).qa then countPos b.wrapMode a.pos (if (a.sample raw).qb then 1 else -1) else a.pos
    aPrev := if en then (a.sample raw).qa else a.aPrev
    home := if a.hlvlPrev = (a.sample raw).homeN then a.home else !(a.sample raw).homeN
    hlvlPrev := (a.sample raw).homeN
    out := match cmd with
      | some w => drive b.wiring (sint32 w)
      | none => a.out
    sync := (raw :: a.sync).dropLast }

/-- `S_{t+1} = Next(S_t, I_t)` and `rdata_t` (R11), with reset first (R202, R220). -/
def State.nextOf (s : State) : State :=
  if s.input.rst then
    { s.mapAxes (fun n a => { AxisState.reset s.build with sync := (s.raw n :: a.sync).dropLast }) with
      rdata := s.readData.map (fun _ => 0#32), pending := s.pending.tail, cycle := s.cycle + 1 }
  else
    { s.mapAxes (fun n a => a.nextOf s.build
        (s.build.sampleMode = .continuous || pollRequested s.input.req) (s.raw n) (speedCommand s.input.req n)) with
      rdata := s.readData, pending := s.pending.tail, cycle := s.cycle + 1 }

end Sys2Proof.Machine
end

