-- ==== Sys2Proof/Certificates/Slice0/Obligations.lean ====
section
/-! DEFINITION. The statements for the provers, from the numbered rules of spec/. -/

open Sys2Proof Sys2Proof.Machine

namespace Sys2Proof.Machine

/-- Nothing but axis `n` differs (the frame of an operation on one axis). -/
def OnlyAxis (n : Axis) (s t : State) : Prop :=
  t.build = s.build ∧ (∀ m, m ≠ n → t.axis? m = s.axis? m) ∧ t.rdata = s.rdata ∧ t.pending = s.pending ∧ t.cycle = s.cycle

/-- The request codes of an axis operation: `c0` for axis 0, `c1` for axis 1, which is unmapped where `N_AXES = 1`. -/
def AxisCodes (c0 c1 : BitVec 9) (op : Axis → Word → Instr) (unmapped : Word → Instr) : Prop :=
  ∀ w : Word,
    decode .one (.bus (some { code := c0, wdata := w })) = op .azimuth w ∧
    decode .two (.bus (some { code := c0, wdata := w })) = op .azimuth w ∧
    decode .two (.bus (some { code := c1, wdata := w })) = op .elevation w ∧
    decode .one (.bus (some { code := c1, wdata := w })) = unmapped w

/-- The request code of an operation without an axis. -/
def OneCode (c : BitVec 9) (op : Word → Instr) : Prop :=
  ∀ (k : NAxes) (w : Word), decode k (.bus (some { code := c, wdata := w })) = op w

/-- Every state element is as it was; only the read data, which is each cycle's own, may differ. -/
def SameState (s t : State) : Prop := { t with rdata := s.rdata } = s

/-- A read operation that returns `f` of its axis; nothing but the read data changes, and a cycle that serves it returns the value
from before the cycle's updates. -/
def ReadsAxis (op : Axis → Instr) (f : AxisState → Word) : Prop :=
  (∀ s n a, s.axis? n = some a → exec (op n) s = .next { s with rdata := some (f a) }) ∧
  (∀ s n a, s.axis? n = some a → s.input.rst = false → s.request = op n →
    ∃ t, step s = .next t ∧ t.rdata = some (f a))

/-- An operation without effect. -/
def IgnoredWrite (i : Instr) : Prop := ∀ s, ∃ t, exec i s = .next t ∧ SameState s t

/-- The bits of a list of (from, value) pairs read as a 32-bit word: the sum of `value * 2^from`. -/
def wordOfFields (fields : List (Nat × Nat)) : Nat := (fields.map (fun p => p.2 * 2 ^ p.1)).sum

/-- A level as a number. -/
def levelNat (b : Level) : Nat := if b then 1 else 0

/-- The cycles a line of a program takes (R79, second column). -/
def lineCycles : Line → Nat
  | .pins _ _ _ _ => 0
  | .rd _ | .wr _ _ | .idle | .reset => 1

/-- The reset and the request of a line's cycle (R79, third and fourth columns); the WDATA of a read is ignored (R70) and open. -/
def lineInput (l : Line) (rst : Bool) (req : Option Request) : Prop :=
  match l with
  | .rd r => rst = false ∧ ∃ w, req = some { code := 0#1 ++ r.addr, wdata := w }
  | .wr r v => rst = false ∧ req = some { code := 1#1 ++ r.addr, wdata := word32 v }
  | .idle => rst = false ∧ req = none
  | .reset => rst = true ∧ req = none
  | .pins _ _ _ _ => False

/-- The sample of axis `n` after lines, from `q`: the last given level of each field (R79, the `pins` row). -/
def sampleAfter (n : Axis) : List Line → AxisLevels → AxisLevels
  | [], q => q
  | .pins m a b h :: ls, q =>
    sampleAfter n ls (if m = n then { qa := a.getD q.qa, qb := b.getD q.qb, homeN := h.getD q.homeN } else q)
  | _ :: ls, q => sampleAfter n ls q

end Sys2Proof.Machine

/-! ### Encoding -/

/-- R70 to R76: decoding an encoded well-formed operation gives it back, for every operation and operand. -/
def Obligations.DecodeAfterEncodeIsIdentity : Prop :=
  ∀ (k : NAxes) (i : Instr), wellFormed k i = true → decode k (encode i) = i

/-- R71, R74, R75, R76, R78: every encoded operation decodes to a well-formed one, and encoding that gives back the request code, the
WDATA of a write, the quadrature bits, the home bits. A command word of a driver class is not given back itself: R76 clamps it,
and encoding gives the word of the clamped command, which decodes to the same operation. -/
def Obligations.EncodeAfterDecodeKeepsTheBits : Prop :=
  (∀ k e, e.present k = true → wellFormed k (decode k e) = true) ∧
  (∀ k (r : Request), ∃ w, encode (decode k (.bus (some r))) = .bus (some { code := r.code, wdata := w }) ∧
    (requestWrites r = true → w = r.wdata)) ∧
  (∀ k, encode (decode k (.bus none)) = .bus none) ∧
  (∀ k n bits, encode (decode k (.qdec n bits)) = .qdec n bits) ∧
  (∀ k n bits, encode (decode k (.home n bits)) = .home n bits) ∧
  (∀ k n (w : Word), encode (decode k (.drive n w)) = .drive n (word32 (clampSpeed (sint32 w))) ∧
    decode k (.drive n (word32 (clampSpeed (sint32 w)))) = decode k (.drive n w))

/-- R72, R71, R52: the operation map, as the table's match and mask. A code that matches a row is that row's operation, with the
axis of code bit 4, unless the axis is not built; every other code is RD_UNMAPPED or WR_UNMAPPED by bit 8. -/
def Obligations.RequestsDecodeByTheOperationMap : Prop :=
  ∀ (k : NAxes) (r : Request),
    let n : Axis := if r.code &&& 0x010#9 = 0#9 then .azimuth else .elevation
    let addr : Byte := r.code.setWidth 8
    let axisRow (value : BitVec 9) (rd : Instr) : Prop :=
      r.code &&& 0x1EF#9 = value → decode k (.bus (some r)) =
        if k.has n then rd else if value &&& 0x100#9 = 0#9 then .rdUnmapped addr else .wrUnmapped addr r.wdata
    let globalRow (value : BitVec 9) (rd : Instr) : Prop := r.code = value → decode k (.bus (some r)) = rd
    axisRow 0x000#9 (.rdPos n) ∧ axisRow 0x100#9 (.wrPos n r.wdata) ∧
    axisRow 0x004#9 (.rdStat n) ∧ axisRow 0x104#9 (.wrStat n r.wdata) ∧
    axisRow 0x008#9 (.rdSpeed n) ∧ axisRow 0x108#9 (.wrSpeed n r.wdata) ∧
    axisRow 0x00C#9 (.rdDrv n) ∧ axisRow 0x10C#9 (.wrDrv n r.wdata) ∧
    globalRow 0x020#9 .rdCfg ∧ globalRow 0x120#9 (.wrCfg r.wdata) ∧
    globalRow 0x024#9 .rdPoll ∧ globalRow 0x124#9 (.wrPoll r.wdata) ∧
    ((r.code &&& 0x1EF#9) ∉ [0x000#9, 0x100#9, 0x004#9, 0x104#9, 0x008#9, 0x108#9, 0x00C#9, 0x10C#9] →
      r.code ∉ [0x020#9, 0x120#9, 0x024#9, 0x124#9] →
      decode k (.bus (some r)) = if r.code &&& 0x100#9 = 0#9 then .rdUnmapped addr else .wrUnmapped addr r.wdata) ∧
    decode k (.bus none) = .idle

/-- Words written out from the spec's encodings (R72, R74, R75) are the operations they stand for. -/
def Obligations.WrittenOutWordsDecodeRight : Prop :=
  decode .two (.bus (some { code := 0b0_0001_0000#9, wdata := 0#32 })) = .rdPos .elevation ∧
  decode .one (.bus (some { code := 0b1_0000_1000#9, wdata := 100#32 })) = .wrSpeed .azimuth 100#32 ∧
  decode .two (.bus (some { code := 0b0_0000_1100#9, wdata := 7#32 })) = .rdDrv .azimuth ∧
  decode .one (.bus (some { code := 0b1_0010_0100#9, wdata := 0#32 })) = .wrPoll 0#32 ∧
  decode .two (.bus (some { code := 0b0_0000_0001#9, wdata := 0#32 })) = .rdUnmapped 0x01#8 ∧
  decode .two (.qdec .azimuth 0b1011#4) = .qdInc .azimuth ∧
  decode .two (.home .elevation 0b10#2) = .homeFall .elevation ∧
  decode .two (.drive .azimuth 0xFFFFFF9C#32) = .drvRev .azimuth (-100)

/-! ### The machine as a whole -/

/-- A step runs the decoded request: in a cycle without reset, `step` is `exec` of the operation the request decodes to, then the
quadrature row and the home row of every axis as decoded from the state before the cycle (no quadrature rows where the
operation is the WR_POLL that took the sample, log 8), then the end of the cycle (R11, R202). The order is the model's (log 7). -/
def Obligations.StepRunsTheDecodedRequest : Prop :=
  ∀ s : State, s.input.rst = false →
    step s = andThen (exec (decode s.build.nAxes (.bus s.input.req)) s)
      (fun t => andThen (runActions (s.trackerActions ++ s.latchActions) t) (fun u => .next u.advance))

/-- R11, R202, R220: the step, which runs the cycle's operations one after the other, is the simultaneous `Next` with `Read`: every
element takes its next value from the state before the cycle; reset wins. Three parts of it are the model's choice and no rule of
the spec: `rdata` is none after a cycle without a read (log 3), the cycle uses up the head of `pending` and advances `cycle`
(log 2), and the synchronisers shift in a reset cycle too (log 4). -/
def Obligations.StepIsTheSimultaneousNext : Prop :=
  ∀ s : State, s.FitsBuild → step s = .next s.nextOf

/-- From every legal state a step gives a legal state (R20, R36, R37, R38, R39). -/
def Obligations.StepKeepsLegality : Prop :=
  ∀ s t : State, s.Inv → step s = .next t → t.Inv

/-- The state after reset is legal, in every build. -/
def Obligations.ResetStateIsLegal : Prop :=
  State.reset = State.resetOf Config.resetBuild ∧ ∀ b : Build, (State.resetOf b).Inv

/-- R200: no operation and no cycle ends in a fault or a refusal, whatever the request and the pins. -/
def Obligations.NothingEverStops : Prop :=
  (∀ (i : Instr) (s : State), ∃ t, exec i s = .next t) ∧ (∀ s : State, ∃ t, step s = .next t)

/-- R4, R166: the build parameters are constant; no operation, no cycle and no reset changes them, nor the set of axes. -/
def Obligations.BuildIsConstant : Prop :=
  (∀ (i : Instr) (s t : State), exec i s = .next t →
    t.build = s.build ∧ ∀ n, (t.axis? n).isSome = (s.axis? n).isSome) ∧
  (∀ s t : State, step s = .next t → t.build = s.build ∧ ∀ n, (t.axis? n).isSome = (s.axis? n).isSome)

/-! ### Reset -/

/-- R221: the reset state of every build, and what its registers read. -/
def Obligations.ResetStateOfEveryBuild : Prop :=
  ∀ b : Build,
    (∀ n, ((State.resetOf b).axis? n).isSome = b.nAxes.has n) ∧
    (∀ n a, (State.resetOf b).axis? n = some a →
      sint32 a.pos = 0 ∧ a.aPrev = false ∧ a.home = false ∧ a.hlvlPrev = false ∧
      (b.wiring = .twoEnable → a.out = { dir1 := true, dir2 := false, duty := 255#8 }) ∧
      (b.wiring = .twoDirection → a.out = { dir1 := true, dir2 := true, duty := 0#8 }) ∧
      (State.resetOf b).readWord (axisAddr n .pos) = 0x00000000#32 ∧
      (State.resetOf b).readWord (axisAddr n .stat) = 0x00000000#32 ∧
      (b.wiring = .twoEnable → (State.resetOf b).readWord (axisAddr n .drv) = 0x0000FF01#32) ∧
      (b.wiring = .twoDirection → (State.resetOf b).readWord (axisAddr n .drv) = 0x00000003#32))

/-- R220, R221: a cycle with `rst = 1` leaves the reset state whatever the request and the samples are; a read returns 0; CFG does not
change, and the synchronisers are not reset. That they shift on in a reset cycle is inferred from R39 (log 4, DEDUCED). -/
def Obligations.ResetCycleWins : Prop :=
  ∀ s : State, s.input.rst = true →
    ∃ t, step s = .next t ∧ t.build = s.build ∧ t.readWord 0x20#8 = s.readWord 0x20#8 ∧
      (∀ n, s.axis? n = none → t.axis? n = none) ∧
      (∀ n a, s.axis? n = some a → ∃ a', t.axis? n = some a' ∧
        a'.pos = 0#32 ∧ a'.aPrev = false ∧ a'.home = false ∧ a'.hlvlPrev = false ∧
        (s.build.wiring = .twoEnable → a'.out = { dir1 := true, dir2 := false, duty := 255#8 }) ∧
        (s.build.wiring = .twoDirection → a'.out = { dir1 := true, dir2 := true, duty := 0#8 }) ∧
        t.readWord (axisAddr n .pos) = 0x00000000#32 ∧ t.readWord (axisAddr n .stat) = 0x00000000#32 ∧
        (s.build.wiring = .twoEnable → t.readWord (axisAddr n .drv) = 0x0000FF01#32) ∧
        (s.build.wiring = .twoDirection → t.readWord (axisAddr n .drv) = 0x00000003#32) ∧
        a'.sync = (s.raw n :: a.sync).dropLast) ∧
      (∀ r, s.input.req = some r → r.code &&& 0x100#9 = 0#9 → t.rdata = some 0x00000000#32)

/-! ### Quadrature position tracker -/

/-- R100, R104: the sample enable. In a cycle without reset the tracker of an axis keeps `pos` and `a_prev` where the enable is 0;
where it is 1, they are what the row of R74 selected by the samples writes, and `a_prev` is the sample of A. -/
def Obligations.SampleEnableDecidesSampling : Prop :=
  ∀ (s : State) (n : Axis) (a : AxisState), s.FitsBuild → s.input.rst = false → s.axis? n = some a →
    let en : Prop := s.build.sampleMode = .continuous ∨
      (s.build.sampleMode = .polled ∧ ∃ w, s.input.req = some { code := 0x124#9, wdata := w })
    let q := a.sample (s.raw n)
    ∃ t a', step s = .next t ∧ t.axis? n = some a' ∧
      (¬ en → a'.pos = a.pos ∧ a'.aPrev = a.aPrev) ∧
      (en → a'.aPrev = q.qa ∧
        ∃ u b, exec (decode s.build.nAxes (.qdec n (qdWord true a.aPrev q.qa q.qb))) s = .next u ∧
          u.axis? n = some b ∧ a'.pos = b.pos ∧ a'.aPrev = b.aPrev)

/-- R101 (QD_INC): with `en = 1, a_prev = 0, qa = 1, qb = 1` the row counts up by one, through the wrap, and sets `a_prev`; nothing
else changes. -/
def Obligations.QdIncCountsUp : Prop :=
  (∀ k n, decode k (.qdec n (qdWord true false true true)) = .qdInc n) ∧
  (∀ (s : State) (n : Axis) (a : AxisState), s.axis? n = some a →
    ∃ t a', exec (.qdInc n) s = .next t ∧ t.axis? n = some a' ∧
      sint32 a'.pos = wrapPos s.build.wrapMode (sint32 a.pos + 1) ∧ a'.aPrev = true ∧
      a' = { a with pos := a'.pos, aPrev := a'.aPrev } ∧ OnlyAxis n s t ∧
      (s.build.wrapMode = .mod → sint32 a.pos = 999999 → sint32 a'.pos = 0) ∧
      (s.build.wrapMode = .native → sint32 a.pos = 2 ^ 31 - 1 → sint32 a'.pos = -2 ^ 31))

/-- R102 (QD_DEC): with `en = 1, a_prev = 0, qa = 1, qb = 0` the row counts down by one, through the wrap, and sets `a_prev`; nothing
else changes. -/
def Obligations.QdDecCountsDown : Prop :=
  (∀ k n, decode k (.qdec n (qdWord true false true false)) = .qdDec n) ∧
  (∀ (s : State) (n : Axis) (a : AxisState), s.axis? n = some a →
    ∃ t a', exec (.qdDec n) s = .next t ∧ t.axis? n = some a' ∧
      sint32 a'.pos = wrapPos s.build.wrapMode (sint32 a.pos - 1) ∧ a'.aPrev = true ∧
      a' = { a with pos := a'.pos, aPrev := a'.aPrev } ∧ OnlyAxis n s t ∧
      (sint32 a.pos = 0 → sint32 a'.pos = -1) ∧
      (s.build.wrapMode = .mod → sint32 a.pos = -999999 → sint32 a'.pos = 0) ∧
      (s.build.wrapMode = .native → sint32 a.pos = -2 ^ 31 → sint32 a'.pos = 2 ^ 31 - 1))

/-- R103 (QD_HOLD) and R74: on a sample that is not a rising edge of A, the row the samples select writes `a_prev <- qa` and nothing
else. -/
def Obligations.QdHoldOnlyTakesTheReference : Prop :=
  (∀ k n qb, decode k (.qdec n (qdWord true false false qb)) = .qdHoldLow n qb) ∧
  (∀ k n qa qb, decode k (.qdec n (qdWord true true qa qb)) = .qdHoldHigh n qa qb) ∧
  (∀ (s : State) (n : Axis) (a : AxisState) (qb : Level), s.axis? n = some a →
    ∃ t, exec (.qdHoldLow n qb) s = .next t ∧ t.axis? n = some { a with aPrev := false } ∧ OnlyAxis n s t) ∧
  (∀ (s : State) (n : Axis) (a : AxisState) (qa qb : Level), s.axis? n = some a →
    ∃ t, exec (.qdHoldHigh n qa qb) s = .next t ∧ t.axis? n = some { a with aPrev := qa } ∧ OnlyAxis n s t)

/-- R100 (QD_NOSAMPLE) and R74: every selector with `en = 0` is that row, and it changes nothing, whatever the samples are. -/
def Obligations.QdNosampleChangesNothing : Prop :=
  (∀ k n aPrev qa qb, decode k (.qdec n (qdWord false aPrev qa qb)) = .qdNosample n aPrev qa qb) ∧
  (∀ (s : State) (n : Axis) (aPrev qa qb : Level), exec (.qdNosample n aPrev qa qb) s = .next s)

/-- R105: the wrap in `MOD` mode is the remainder of the division rounded toward zero: the sign of the dividend, a magnitude below
WRAP_MOD; one past the range it gives 0, inside the range it changes nothing. -/
def Obligations.ModWrapIsTruncatedRemainder : Prop :=
  ∀ v : Int,
    (∃ q : Int, v = q * 1000000 + wrapPos .mod v ∧ q.natAbs * 1000000 ≤ v.natAbs ∧ v.natAbs < (q.natAbs + 1) * 1000000) ∧
    (0 ≤ v → 0 ≤ wrapPos .mod v ∧ wrapPos .mod v < 1000000) ∧
    (v ≤ 0 → -1000000 < wrapPos .mod v ∧ wrapPos .mod v ≤ 0) ∧
    (-1000000 < v → v < 1000000 → wrapPos .mod v = v) ∧
    (v = 1000000 ∨ v = -1000000 → wrapPos .mod v = 0)

/-- R106: the wrap in `NATIVE` mode is two's complement modulo 2^32. -/
def Obligations.NativeWrapIsTwosComplement : Prop :=
  (∀ v : Int, -2 ^ 31 ≤ wrapPos .native v ∧ wrapPos .native v < 2 ^ 31 ∧ ∃ q : Int, v = q * 2 ^ 32 + wrapPos .native v) ∧
  countPos .native 0x7FFFFFFF#32 1 = 0x80000000#32 ∧ countPos .native 0x80000000#32 (-1) = 0x7FFFFFFF#32

/-- R107 (WR_POLL): in `POLLED` mode every axis takes the row of R74 for its samples of this cycle, all in the same cycle, whatever
WDATA is; in `CONTINUOUS` mode the request has no effect, and its cycle is an idle cycle. -/
def Obligations.WrPollSamplesEveryAxis : Prop :=
  OneCode 0x124#9 .wrPoll ∧
  (∀ (s : State) (w : Word), s.build.sampleMode = .polled →
    ∃ t, exec (.wrPoll w) s = .next t ∧ t.build = s.build ∧ t.pending = s.pending ∧ t.cycle = s.cycle ∧
      (∀ n, s.axis? n = none → t.axis? n = none) ∧
      ∀ n a, s.axis? n = some a → ∃ a', t.axis? n = some a' ∧ a'.aPrev = (a.sample (s.raw n)).qa ∧
        a'.pos = (if a.aPrev = false ∧ (a.sample (s.raw n)).qa = true then
          word32 (wrapPos s.build.wrapMode (sint32 a.pos + if (a.sample (s.raw n)).qb then 1 else -1)) else a.pos) ∧
        a' = { a with pos := a'.pos, aPrev := a'.aPrev }) ∧
  (∀ (s : State) (w : Word), s.build.sampleMode = .continuous → ∃ t, exec (.wrPoll w) s = .next t ∧ SameState s t) ∧
  (∀ (s : State) (w : Word), s.FitsBuild → s.build.sampleMode = .continuous →
    step (s.placeRequest (some { code := 0x124#9, wdata := w })) = step (s.placeRequest none))

/-- R108 (RD_POS). -/
def Obligations.RdPosReturnsThePosition : Prop :=
  AxisCodes 0x000#9 0x010#9 (fun n _ => .rdPos n) (fun _ => .rdUnmapped 0x10#8) ∧
  ReadsAxis .rdPos (fun a => word32 (sint32 a.pos))

/-- R109, R136, R161 (WR_POS, WR_STAT, WR_DRV): ignored, so the host can neither preset the position, nor set or clear the flag, nor
drive the pins. -/
def Obligations.ReadOnlyAxisRegistersIgnoreWrites : Prop :=
  AxisCodes 0x100#9 0x110#9 .wrPos (.wrUnmapped 0x10#8) ∧
  AxisCodes 0x104#9 0x114#9 .wrStat (.wrUnmapped 0x14#8) ∧
  AxisCodes 0x10C#9 0x11C#9 .wrDrv (.wrUnmapped 0x1C#8) ∧
  ∀ n w, IgnoredWrite (.wrPos n w) ∧ IgnoredWrite (.wrStat n w) ∧ IgnoredWrite (.wrDrv n w)

/-- R37: in `MOD` mode the position stays strictly between `-WRAP_MOD` and `WRAP_MOD`: at reset, and after every
cycle from a state in which it does. -/
def Obligations.ModPositionStaysInRange : Prop :=
  (∀ b, (State.resetOf b).PosInRange) ∧ ∀ s t : State, s.FitsBuild → s.PosInRange → step s = .next t → t.PosInRange

/-! ### Home-state latch -/

/-- R130 (HOME_FALL): the flag goes up and the reference level down, whatever the flag was; nothing else changes. -/
def Obligations.HomeFallSetsTheFlag : Prop :=
  (∀ k n, decode k (.home n (homeWord true false)) = .homeFall n) ∧
  (∀ (s : State) (n : Axis) (a : AxisState), s.axis? n = some a →
    ∃ t, exec (.homeFall n) s = .next t ∧ t.axis? n = some { a with home := true, hlvlPrev := false } ∧ OnlyAxis n s t)

/-- R131 (HOME_RISE): the flag goes down and the reference level up; nothing else changes. -/
def Obligations.HomeRiseClearsTheFlag : Prop :=
  (∀ k n, decode k (.home n (homeWord false true)) = .homeRise n) ∧
  (∀ (s : State) (n : Axis) (a : AxisState), s.axis? n = some a →
    ∃ t, exec (.homeRise n) s = .next t ∧ t.axis? n = some { a with home := false, hlvlPrev := true } ∧ OnlyAxis n s t)

/-- R132 (HOME_HOLD): both rows, without a change of level, change nothing. -/
def Obligations.HomeHoldChangesNothing : Prop :=
  (∀ k n, decode k (.home n (homeWord false false)) = .homeHoldLow n ∧
    decode k (.home n (homeWord true true)) = .homeHoldHigh n) ∧
  (∀ (s : State) (n : Axis), exec (.homeHoldLow n) s = .next s ∧ exec (.homeHoldHigh n) s = .next s)

/-- R133, R134, R137: in every cycle without reset, whatever the sample mode and the request, `hlvl_prev` becomes the sample, and the
flag is recomputed on every sampled change and on no other sample. -/
def Obligations.LatchSamplesEveryCycle : Prop :=
  ∀ (s : State) (n : Axis) (a : AxisState), s.FitsBuild → s.input.rst = false → s.axis? n = some a →
    ∃ t a', step s = .next t ∧ t.axis? n = some a' ∧
      a'.hlvlPrev = (a.sample (s.raw n)).homeN ∧
      ((a.sample (s.raw n)).homeN ≠ a.hlvlPrev → a'.home = !(a.sample (s.raw n)).homeN) ∧
      ((a.sample (s.raw n)).homeN = a.hlvlPrev → a'.home = a.home)

/-- R36, R139, with `changed` standing for "a change of the axis's home input has been sampled since reset": after reset, and kept
by every cycle, the flag is the negation of the reference level once a change has been sampled, and 0 before. A cycle without
reset that samples a change sets `changed`; a reset cycle, which samples nothing, clears it, from whatever state. -/
def Obligations.HomeFlagIsTheNegatedLevelAfterAChange : Prop :=
  (∀ b n a, (State.resetOf b).axis? n = some a → a.home = false ∧ a.hlvlPrev = false) ∧
  (∀ (s : State) (n : Axis) (a : AxisState) (changed : Bool), s.FitsBuild → s.input.rst = false → s.axis? n = some a →
    (if changed then a.home = !a.hlvlPrev else a.home = false ∧ a.hlvlPrev = false) →
    ∃ t a', step s = .next t ∧ t.axis? n = some a' ∧
      if changed || (a.sample (s.raw n)).homeN != a.hlvlPrev then a'.home = !a'.hlvlPrev
      else a'.home = false ∧ a'.hlvlPrev = false) ∧
  (∀ (s : State) (n : Axis) (a : AxisState), s.input.rst = true → s.axis? n = some a →
    ∃ t a', step s = .next t ∧ t.axis? n = some a' ∧ a'.home = false ∧ a'.hlvlPrev = false)

/-- R135 (RD_STAT), R31: HOME, A_PREV, HLVL_PREV in bits 0, 1, 2; the rest 0. -/
def Obligations.RdStatReturnsTheFlag : Prop :=
  AxisCodes 0x004#9 0x014#9 (fun n _ => .rdStat n) (fun _ => .rdUnmapped 0x14#8) ∧
  ReadsAxis .rdStat (fun a =>
    BitVec.ofNat 32 (wordOfFields [(0, levelNat a.home), (1, levelNat a.aPrev), (2, levelNat a.hlvlPrev)]))

/-! ### Motor driver -/

/-- R150: the clamped command lies in `-255 .. 255`, is the command itself inside that range, and its magnitude in `0 .. 255`. -/
def Obligations.SpeedIsClamped : Prop :=
  ∀ s : Int, -255 ≤ clampSpeed s ∧ clampSpeed s ≤ 255 ∧ 0 ≤ absInt (clampSpeed s) ∧ absInt (clampSpeed s) ≤ 255 ∧
    (-255 ≤ s → s ≤ 255 → clampSpeed s = s) ∧ (s < -255 → clampSpeed s = -255) ∧ (255 < s → clampSpeed s = 255)

/-- R151, R152, R153: inside the deadzone the driver gives the stop state of the wiring. -/
def Obligations.DeadzoneGivesTheStopState : Prop :=
  ∀ s : Int, -10 ≤ s → s ≤ 10 →
    drive .twoEnable s = { dir1 := true, dir2 := false, duty := 255#8 } ∧
    drive .twoDirection s = { dir1 := true, dir2 := true, duty := 0#8 }

/-- R154 to R157: outside the deadzone the directions and the duty of each wiring, with the inverted duty of TWO_ENABLE forward. -/
def Obligations.MotionGivesDirectionAndDuty : Prop :=
  ∀ s : Int,
    (11 ≤ s → s ≤ 255 →
      ((drive .twoEnable s).dir1 = true ∧ (drive .twoEnable s).dir2 = false ∧ ((drive .twoEnable s).duty.toNat : Int) = 255 - s) ∧
      ((drive .twoDirection s).dir1 = true ∧ (drive .twoDirection s).dir2 = false ∧ ((drive .twoDirection s).duty.toNat : Int) = s)) ∧
    (-255 ≤ s → s ≤ -11 →
      ((drive .twoEnable s).dir1 = false ∧ (drive .twoEnable s).dir2 = false ∧ ((drive .twoEnable s).duty.toNat : Int) = -s) ∧
      ((drive .twoDirection s).dir1 = false ∧ (drive .twoDirection s).dir2 = true ∧ ((drive .twoDirection s).duty.toNat : Int) = -s)) ∧
    (255 < s → ∀ w, drive w s = drive w 255) ∧ (s < -255 → ∀ w, drive w s = drive w (-255))

/-- R76: the three classes complete with the outputs of the table for every `c` of their range, on the axis alone; and a command
word selects by its clamped value the class whose outputs the drive function computes. -/
def Obligations.DriverClassesAreTheTable : Prop :=
  (∀ (s : State) (n : Axis) (a : AxisState) (c : Int), s.axis? n = some a →
    (-10 ≤ c → c ≤ 10 → ∃ t, exec (.drvStop n c) s = .next t ∧ OnlyAxis n s t ∧
      t.axis? n = some { a with out := drive s.build.wiring c } ∧
      drive .twoEnable c = { dir1 := true, dir2 := false, duty := 255#8 } ∧
      drive .twoDirection c = { dir1 := true, dir2 := true, duty := 0#8 }) ∧
    (11 ≤ c → c ≤ 255 → ∃ t, exec (.drvFwd n c) s = .next t ∧ OnlyAxis n s t ∧
      t.axis? n = some { a with out := drive s.build.wiring c } ∧
      drive .twoEnable c = { dir1 := true, dir2 := false, duty := BitVec.ofInt 8 (255 - c) } ∧
      drive .twoDirection c = { dir1 := true, dir2 := false, duty := BitVec.ofInt 8 c }) ∧
    (-255 ≤ c → c ≤ -11 → ∃ t, exec (.drvRev n c) s = .next t ∧ OnlyAxis n s t ∧
      t.axis? n = some { a with out := drive s.build.wiring c } ∧
      drive .twoEnable c = { dir1 := false, dir2 := false, duty := BitVec.ofInt 8 (-c) } ∧
      drive .twoDirection c = { dir1 := false, dir2 := true, duty := BitVec.ofInt 8 (-c) })) ∧
  (∀ k n (w : Word),
    (-10 ≤ clampSpeed (sint32 w) → clampSpeed (sint32 w) ≤ 10 →
      decode k (.drive n w) = .drvStop n (clampSpeed (sint32 w))) ∧
    (11 ≤ clampSpeed (sint32 w) → decode k (.drive n w) = .drvFwd n (clampSpeed (sint32 w))) ∧
    (clampSpeed (sint32 w) ≤ -11 → decode k (.drive n w) = .drvRev n (clampSpeed (sint32 w))))

/-- R158 with R76: WR_SPEED is the driver class its command word selects, and has no other effect (that a cycle without a read leaves
no read data is the model's, log 3). -/
def Obligations.WrSpeedRunsTheSelectedClass : Prop :=
  ∀ (s : State) (n : Axis) (w : Word),
    exec (.wrSpeed n w) s = exec (decode s.build.nAxes (.drive n w)) { s with rdata := none }

/-- R158 (WR_SPEED): the three output registers of the axis take `drive(sint32(WDATA))`, and nothing else changes; where `N_AXES = 1`
code `0x118` is WR_UNMAPPED. -/
def Obligations.WrSpeedDrivesTheOutputs : Prop :=
  AxisCodes 0x108#9 0x118#9 .wrSpeed (.wrUnmapped 0x18#8) ∧
  (∀ (s : State) (n : Axis) (a : AxisState) (w : Word), s.axis? n = some a →
    ∃ t, exec (.wrSpeed n w) s = .next t ∧ OnlyAxis n s { t with rdata := s.rdata } ∧
      t.axis? n = some { a with out := drive s.build.wiring (sint32 w) }) ∧
  (∀ w, drive w (sint32 0x80000000#32) = drive w (-255))

/-- R159, R182 (RD_SPEED, RD_POLL): the write-only registers read 0, and a read of POLL does not poll. -/
def Obligations.WriteOnlyRegistersReadZero : Prop :=
  AxisCodes 0x008#9 0x018#9 (fun n _ => .rdSpeed n) (fun _ => .rdUnmapped 0x18#8) ∧
  OneCode 0x024#9 (fun _ => .rdPoll) ∧
  (∀ (s : State) (n : Axis), exec (.rdSpeed n) s = .next { s with rdata := some 0x00000000#32 }) ∧
  (∀ s : State, exec .rdPoll s = .next { s with rdata := some 0x00000000#32 })

/-- R160 (RD_DRV), R33: DIR1 and DIR2 in bits 0 and 1, DUTY in 15:8; the rest 0. -/
def Obligations.RdDrvReturnsTheOutputs : Prop :=
  AxisCodes 0x00C#9 0x01C#9 (fun n _ => .rdDrv n) (fun _ => .rdUnmapped 0x1C#8) ∧
  ReadsAxis .rdDrv (fun a =>
    BitVec.ofNat 32 (wordOfFields [(0, levelNat a.out.dir1), (1, levelNat a.out.dir2), (8, a.out.duty.toNat)]))

/-- R162: the pins of each wiring scheme are the output registers, with `dir2` held 0 where the scheme has no such pin. -/
def Obligations.PinsFollowTheWiring : Prop :=
  (∀ (s : State) (n : Axis) (a : AxisState), s.axis? n = some a →
    (s.build.wiring = .twoEnable → s.pins n = some (.twoEnable a.out.dir1 a.out.duty)) ∧
    (s.build.wiring = .twoDirection → s.pins n = some (.twoDirection a.out.dir1 a.out.dir2 a.out.duty))) ∧
  (∀ s t : State, s.FitsBuild → s.build.wiring = .twoEnable → (∀ n a, s.axis? n = some a → a.out.dir2 = false) → step s = .next t →
    ∀ n a, t.axis? n = some a → a.out.dir2 = false) ∧
  (∀ b n a, b.wiring = .twoEnable → (State.resetOf b).axis? n = some a → a.out.dir2 = false)

/-- R163: the outputs after a WR_SPEED depend only on `sint32(WDATA)` and WIRING, whatever the two states are; the second of two
equal writes changes nothing. -/
def Obligations.DriverIsStateless : Prop :=
  (∀ (s u : State) (n : Axis) (w : Word), s.build.wiring = u.build.wiring → (s.axis? n).isSome = (u.axis? n).isSome →
    ∃ s' u', exec (.wrSpeed n w) s = .next s' ∧ exec (.wrSpeed n w) u = .next u' ∧
      (s'.axis? n).map AxisState.out = (u'.axis? n).map AxisState.out) ∧
  (∀ (s : State) (n : Axis) (w : Word), ∃ t, exec (.wrSpeed n w) s = .next t ∧ exec (.wrSpeed n w) t = .next t)

/-- R38, R164: at reset the outputs are `drive(0)`; a cycle that writes SPEED[n] leaves the outputs of that command; every other cycle
without reset leaves the outputs of axis `n` as they are, and a reset cycle leaves `drive(0)`. And in TWO_DIRECTION both
directions up means duty 0. -/
def Obligations.OutputsAreThoseOfTheLastCommand : Prop :=
  (∀ b n a, (State.resetOf b).axis? n = some a → a.out = drive b.wiring 0) ∧
  (∀ (s : State) (n : Axis) (a : AxisState), s.FitsBuild → s.axis? n = some a →
    ∃ t a', step s = .next t ∧ t.axis? n = some a' ∧
      (s.input.rst = true → a'.out = drive s.build.wiring 0) ∧
      (∀ w, s.Serves (1#1 ++ axisAddr n .speed) w → a'.out = drive s.build.wiring (sint32 w)) ∧
      ((s.input.rst = false ∧ ∀ w, ¬ s.Serves (1#1 ++ axisAddr n .speed) w) → a'.out = a.out)) ∧
  (∀ x : Int, (drive .twoDirection x).dir1 = true → (drive .twoDirection x).dir2 = true → (drive .twoDirection x).duty = 0#8)

/-- R165: no double drive. In TWO_DIRECTION both directions are up only in the stop state, and exactly one in motion; in
TWO_ENABLE stop and forward hold the direction pin up and differ in duty. -/
def Obligations.NoDoubleDrive : Prop :=
  (∀ x : Int, ((drive .twoDirection x).dir1 = true ∧ (drive .twoDirection x).dir2 = true) ↔ (-10 ≤ x ∧ x ≤ 10)) ∧
  (∀ x : Int, (drive .twoDirection x).dir1 = true → (drive .twoDirection x).dir2 = true → (drive .twoDirection x).duty = 0#8) ∧
  (∀ x : Int, (x < -10 ∨ 10 < x) → (drive .twoDirection x).dir1 = !(drive .twoDirection x).dir2) ∧
  (∀ x : Int, (drive .twoEnable x).dir1 = true ↔ -10 ≤ x) ∧
  (∀ x : Int, -10 ≤ x → x ≤ 10 → drive .twoEnable x = { dir1 := true, dir2 := false, duty := 255#8 }) ∧
  (∀ x : Int, 10 < x → drive .twoEnable x =
    { dir1 := true, dir2 := false, duty := 255#8 - BitVec.ofInt 8 (absInt (clampSpeed x)) } ∧ (drive .twoEnable x).duty ≠ 255#8)

/-! ### Configuration and catch-all requests -/

/-- R180, R34 (RD_CFG): the build parameters in their fields, the same in every cycle. -/
def Obligations.RdCfgReportsTheBuild : Prop :=
  OneCode 0x020#9 (fun _ => .rdCfg) ∧
  (∀ s : State, exec .rdCfg s = .next { s with rdata := some (BitVec.ofNat 32 (wordOfFields
    [(0, levelNat (decide (s.build.wiring = .twoDirection))), (1, levelNat (decide (s.build.sampleMode = .continuous))),
     (2, levelNat (decide (s.build.wrapMode = .native))), (4, s.build.nAxes.toNat), (8, 10), (16, s.build.syncStages % 256)])) }) ∧
  cfgWord (Config.singleAxis .twoEnable) = 0x00020A10#32 ∧ cfgWord (Config.singleAxis .twoDirection) = 0x00020A11#32 ∧
  cfgWord (Config.dualAxis .twoDirection) = 0x00020A27#32 ∧ cfgWord (Config.dualAxis .twoEnable) = 0x00020A26#32

/-- R181 (WR_CFG): ignored. -/
def Obligations.WrCfgIsIgnored : Prop :=
  OneCode 0x120#9 .wrCfg ∧ ∀ w, IgnoredWrite (.wrCfg w)

/-- R183, R184, R54, R52 (RD_UNMAPPED, WR_UNMAPPED): every request whose address is misaligned or not named by the map is one of the
two; a read returns 0 and a write changes nothing. -/
def Obligations.UnmappedRequestsReadZeroAndWriteNothing : Prop :=
  (∀ (k : NAxes) (addr : Byte) (w : Word), (addr.toNat % 4 ≠ 0 ∨ addr ∉ mappedAddrs k) →
    decode k (.bus (some { code := 0#1 ++ addr, wdata := w })) = .rdUnmapped addr ∧
    decode k (.bus (some { code := 1#1 ++ addr, wdata := w })) = .wrUnmapped addr w) ∧
  (∀ (s : State) (addr : Byte), exec (.rdUnmapped addr) s = .next { s with rdata := some 0x00000000#32 }) ∧
  (∀ (addr : Byte) (w : Word), IgnoredWrite (.wrUnmapped addr w))

/-- R185 (IDLE): no request is IDLE, and it has no bus effect; the cycle's pin sampling still runs: the latch's on every axis, and
the tracker's in CONTINUOUS mode; in POLLED mode an idle cycle takes no phase sample. -/
def Obligations.IdleHasNoBusEffect : Prop :=
  (∀ k, decode k (.bus none) = .idle) ∧
  IgnoredWrite .idle ∧
  (∀ (s : State) (n : Axis) (a : AxisState), s.FitsBuild → s.input.rst = false → s.input.req = none → s.axis? n = some a →
    ∃ t a', step s = .next t ∧ t.axis? n = some a' ∧ a'.out = a.out ∧
      a'.hlvlPrev = (a.sample (s.raw n)).homeN ∧
      a'.home = (if (a.sample (s.raw n)).homeN = a.hlvlPrev then a.home else !(a.sample (s.raw n)).homeN) ∧
      (s.build.sampleMode = .polled → a'.pos = a.pos ∧ a'.aPrev = a.aPrev) ∧
      (s.build.sampleMode = .continuous → a'.aPrev = (a.sample (s.raw n)).qa ∧
        a'.pos = (if a.aPrev = false ∧ (a.sample (s.raw n)).qa = true then
          word32 (wrapPos s.build.wrapMode (sint32 a.pos + if (a.sample (s.raw n)).qb then 1 else -1)) else a.pos)))

/-! ### The register space -/

/-- R51, R56, R58: a read request at any of the 256 addresses returns in its cycle the word the address map gives it, from the state
before the cycle's updates. -/
def Obligations.ReadsFollowTheAddressMap : Prop :=
  ∀ (s : State) (addr : Byte) (w : Word), s.FitsBuild → s.Serves (0#1 ++ addr) w →
    ∃ t, step s = .next t ∧ t.rdata = some (s.readWord addr)

/-- R57: no read has a side effect, and of the writes only those of SPEED[n] and, in POLLED mode, of POLL have one: every other
request's cycle leaves the state of an idle cycle, but for the read data. -/
def Obligations.OnlySpeedAndPollWritesHaveEffects : Prop :=
  ∀ (s : State) (r : Request), s.FitsBuild →
    r.code ≠ 0x108#9 → r.code ≠ 0x118#9 → (r.code ≠ 0x124#9 ∨ s.build.sampleMode = .continuous) →
    ∃ t u, step (s.placeRequest (some r)) = .next t ∧ step (s.placeRequest none) = .next u ∧
      SameState t u

/-- R55: a register's word is its four bytes, the byte at `A + k` carrying bits `8k+7 : 8k`. -/
def Obligations.BytesAreLittleEndianLanes : Prop :=
  ∀ (s : State) (addr : Byte), addr.toNat % 4 = 0 →
    s.readWord addr = s.readByte (addr + 3#8) ++ s.readByte (addr + 2#8) ++ s.readByte (addr + 1#8) ++ s.readByte addr

/-- The frame over the register space: WR_SPEED changes no byte outside DRV[n]; a quadrature row none outside POS[n] and STAT[n]; a
home row none outside STAT[n]; a driver class none outside DRV[n]; every other operation but WR_POLL no byte at all; WR_POLL
none outside POS and STAT. -/
def Obligations.RegisterSpaceFrame : Prop :=
  ∀ (i : Instr) (s t : State) (addr : Byte), exec i s = .next t →
    let inReg (n : Axis) (r : AxisReg) : Prop := addr &&& 0xFC#8 = axisAddr n r
    (match i with
      | .wrSpeed n _ | .drvStop n _ | .drvFwd n _ | .drvRev n _ => ¬ inReg n .drv
      | .qdInc n | .qdDec n => ¬ inReg n .pos ∧ ¬ inReg n .stat
      | .qdHoldLow n _ | .qdHoldHigh n _ _ | .homeFall n | .homeRise n => ¬ inReg n .stat
      | .wrPoll _ => ∀ n, ¬ inReg n .pos ∧ ¬ inReg n .stat
      | _ => True) →
    t.readByte addr = s.readByte addr

/-- R225: a WR_SPEED in one cycle: at its end the pins have the new outputs, all three, whatever comes next, and a read of DRV in the
next cycle returns them. -/
def Obligations.SpeedWriteReadsBackInTheNextCycle : Prop :=
  ∀ (s : State) (n : Axis) (w : Word), s.FitsBuild → (s.axis? n).isSome = true →
    s.Serves (1#1 ++ axisAddr n .speed) w →
    let o := drive s.build.wiring (sint32 w)
    ∃ t, step s = .next t ∧ t.pins n = some (outputPins s.build.wiring o) ∧
      ∀ w', t.Serves (0#1 ++ axisAddr n .drv) w' → ∃ u, step t = .next u ∧
        u.rdata = some (BitVec.ofNat 32 (wordOfFields [(0, levelNat o.dir1), (1, levelNat o.dir2), (8, o.duty.toNat)]))

/-- R63, R226: a read of POS[n] in the cycle in which the tracker counts returns the position before the count, and the count is
kept: a read in the next cycle returns it. -/
def Obligations.ReadDuringACountIsOneCycleStale : Prop :=
  ∀ (s t : State) (n : Axis) (a : AxisState) (w w' : Word), s.FitsBuild → s.axis? n = some a →
    s.build.sampleMode = .continuous → a.aPrev = false → (a.sample (s.raw n)).qa = true →
    s.Serves (0#1 ++ axisAddr n .pos) w → step s = .next t → t.Serves (0#1 ++ axisAddr n .pos) w' →
    t.rdata = some a.pos ∧
    ∃ u, step t = .next u ∧
      u.rdata = some (word32 (wrapPos s.build.wrapMode (sint32 a.pos + if (a.sample (s.raw n)).qb then 1 else -1)))

/-- R226 with R107: a WR_POLL in one cycle of a POLLED build and a read of POS[n] in the next: the read returns the count of the
poll. -/
def Obligations.PollThenReadSeesThePoll : Prop :=
  ∀ (s t : State) (n : Axis) (a : AxisState) (w w' : Word), s.FitsBuild → s.axis? n = some a →
    s.build.sampleMode = .polled → a.aPrev = false → (a.sample (s.raw n)).qa = true →
    s.Serves 0x124#9 w → step s = .next t → t.Serves (0#1 ++ axisAddr n .pos) w' →
    ∃ u, step t = .next u ∧
      u.rdata = some (word32 (wrapPos s.build.wrapMode (sint32 a.pos + if (a.sample (s.raw n)).qb then 1 else -1)))

/-- The model's choice for the cycle's read data (log 3): it is there exactly after a cycle whose request was a read, a reset cycle
among them. -/
def Obligations.ReadDataExactlyAfterARead : Prop :=
  ∀ s t : State, s.FitsBuild → step s = .next t →
    (t.rdata.isSome = true ↔ ∃ r, s.input.req = some r ∧ r.code &&& 0x100#9 = 0#9)

/-- The model's choice for an operation that names an axis the build does not have (log 11; no request decodes to one): a read
returns 0 as RD_UNMAPPED does, and everything else changes nothing. -/
def Obligations.AbsentAxisOperationsDoNothing : Prop :=
  ∀ (s : State) (n : Axis), s.axis? n = none →
    (∀ i ∈ [Instr.rdPos n, .rdStat n, .rdSpeed n, .rdDrv n], exec i s = .next { s with rdata := some 0#32 }) ∧
    (∀ w, ∀ i ∈ [Instr.wrPos n w, .wrStat n w, .wrSpeed n w, .wrDrv n w], exec i s = .next { s with rdata := none }) ∧
    (∀ aPrev qa qb, ∀ i ∈ [Instr.qdNosample n aPrev qa qb, .qdInc n, .qdDec n, .qdHoldLow n qb, .qdHoldHigh n qa qb,
      .homeFall n, .homeRise n, .homeHoldLow n, .homeHoldHigh n], exec i s = .next s) ∧
    (∀ c, ∀ i ∈ [Instr.drvStop n c, .drvFwd n c, .drvRev n c], exec i s = .next s)

/-! ### Axes, synchronisers, programs -/

/-- R207: two machines of one build, whose cycles serve the same request and reset, and which agree on axis `n` and on its pins, agree
on axis `n` after the cycle, whatever the other axis and its pins do. -/
def Obligations.AxesAreIndependent : Prop :=
  ∀ (s u : State) (n : Axis), s.FitsBuild → u.FitsBuild → s.build = u.build → s.axis? n = u.axis? n → s.input.rst = u.input.rst →
    s.input.req = u.input.req → s.raw n = u.raw n →
    ∃ s' u', step s = .next s' ∧ step u = .next u' ∧ s'.axis? n = u'.axis? n

/-- R3: the latch and the tracker share no state. What the home input and the latch do never reaches the position, and what the phases
and the tracker do never reaches the home flag: two machines of one build with the same reset and request agree after the cycle
on the part of an axis on which they agreed before it. -/
def Obligations.TrackerAndLatchShareNothing : Prop :=
  ∀ (s u : State) (n : Axis) (a b : AxisState), s.FitsBuild → u.FitsBuild → s.build = u.build → s.axis? n = some a → u.axis? n = some b →
    s.input.rst = u.input.rst → s.input.req = u.input.req →
    ∃ s' u' a' b', step s = .next s' ∧ step u = .next u' ∧ s'.axis? n = some a' ∧ u'.axis? n = some b' ∧
      (a.pos = b.pos → a.aPrev = b.aPrev → (a.sample (s.raw n)).qa = (b.sample (u.raw n)).qa →
        (a.sample (s.raw n)).qb = (b.sample (u.raw n)).qb → a'.pos = b'.pos ∧ a'.aPrev = b'.aPrev) ∧
      (a.home = b.home → a.hlvlPrev = b.hlvlPrev → (a.sample (s.raw n)).homeN = (b.sample (u.raw n)).homeN →
        a'.home = b'.home ∧ a'.hlvlPrev = b'.hlvlPrev)

/-- R227, R39: the sample of an axis in the cycle `SYNC_STAGES` cycles on is the level its pins have now, whatever comes in between,
and the latch's reference level holds it at the end of that cycle. That resets in between do not stop the synchronisers is
inferred from R39 (log 4, DEDUCED). -/
def Obligations.SampleIsThePinLevelSyncStagesEarlier : Prop :=
  ∀ (s : State) (n : Axis) (a : AxisState), s.FitsBuild → s.axis? n = some a →
    ∃ t b, Host.Core.run Sys2Proof.core s.build.syncStages s = .next t ∧ t.axis? n = some b ∧
      b.sample (t.raw n) = s.raw n ∧
      (t.input.rst = false → ∃ u c, step t = .next u ∧ u.axis? n = some c ∧ c.hlvlPrev = (s.raw n).homeN)

/-- R79, R227 (the loading is the model's, log 14; the synchronisers shift in reset cycles too, log 4). A list of cycles loaded comes
with its own inputs: in cycle `j` the request, the reset and the sample of every axis are those of entry `j`. And a program of R79
loaded runs line by line: after the cycles of the lines before it, a `rd`, `wr`, `idle` or `reset` line is in its cycle the
request and the reset that the table of R79 gives it, with the samples the `pins` lines before it have set, from quiet ones
(95_test_vectors.md section 3); a `pins` line takes no cycle, changes its axis's given fields, and keeps the omitted ones. The
register names stand for the addresses of R51. -/
def Obligations.LoadedProgramsKeepTheirSamples : Prop :=
  (∀ (s : State) (cs : List CycleInput) (j : Nat) (c : CycleInput), s.FitsBuild → cs[j]? = some c →
    ∃ t, Host.Core.run Sys2Proof.core j (s.load cs) = .next t ∧
      t.input.rst = c.rst ∧ t.input.req = c.req ∧
      ∀ n b, t.axis? n = some b → b.sample (t.raw n) = c.pins.level n) ∧
  (∀ (s : State) (before after : List Line) (l : Line), s.FitsBuild → lineCycles l = 1 →
    ∃ t, Host.Core.run Sys2Proof.core (before.map lineCycles).sum (s.loadProgram (before ++ l :: after)) = .next t ∧
      lineInput l t.input.rst t.input.req ∧
      ∀ n b, t.axis? n = some b → b.sample (t.raw n) = sampleAfter n before Config.quietLevels) ∧
  (∀ n, (RegName.reg n .pos).addr.toNat = 0x00 + 0x10 * n.index ∧ (RegName.reg n .stat).addr.toNat = 0x04 + 0x10 * n.index ∧
    (RegName.reg n .speed).addr.toNat = 0x08 + 0x10 * n.index ∧ (RegName.reg n .drv).addr.toNat = 0x0C + 0x10 * n.index) ∧
  RegName.cfg.addr = 0x20#8 ∧ RegName.poll.addr = 0x24#8 ∧ ∀ addr, (RegName.raw addr).addr = addr
end

