-- ==== Sys2Proof/Laws/Encoding.lean ====
section
/-! SUPPORT. What the request decoder does with a code, said once: the code's two fields, and the decoding of a read and of a write request. -/

namespace Sys2Proof

/-- A code is its write bit and its address (R70). -/
theorem request_code_eq (r : Request) : r.code = BitVec.ofBool (requestWrites r) ++ requestAddr r := by
  unfold requestWrites requestAddr
  generalize r.code = c
  revert c
  set_option maxRecDepth 20000 in decide

theorem requestWrites_read (addr : Byte) (w : Word) : requestWrites { code := 0#1 ++ addr, wdata := w } = false := by
  unfold requestWrites; dsimp only
  revert addr
  decide

theorem requestWrites_write (addr : Byte) (w : Word) : requestWrites { code := 1#1 ++ addr, wdata := w } = true := by
  unfold requestWrites; dsimp only
  revert addr
  decide

theorem requestAddr_read (addr : Byte) (w : Word) : requestAddr { code := 0#1 ++ addr, wdata := w } = addr := by
  unfold requestAddr; dsimp only
  revert addr
  decide

theorem requestAddr_write (addr : Byte) (w : Word) : requestAddr { code := 1#1 ++ addr, wdata := w } = addr := by
  unfold requestAddr; dsimp only
  revert addr
  decide

/-- A read request is the read operation of its address's target. -/
theorem decode_read (k : NAxes) (addr : Byte) (w : Word) :
    decode k (.bus (some { code := 0#1 ++ addr, wdata := w })) = readInstr addr (decodeAddr k addr) := by
  simp [decode, decodeRequest, requestWrites_read, requestAddr_read]

/-- A write request is the write operation of its address's target. -/
theorem decode_write (k : NAxes) (addr : Byte) (w : Word) :
    decode k (.bus (some { code := 1#1 ++ addr, wdata := w })) = writeInstr addr w (decodeAddr k addr) := by
  simp [decode, decodeRequest, requestWrites_write, requestAddr_write]

/-- An address that the map of R51 does not name is unmapped (R54, R71), and conversely. -/
theorem decodeAddr_unmapped (k : NAxes) (addr : Byte) : decodeAddr k addr = .unmapped ↔ addr ∉ mappedAddrs k := by
  revert addr
  cases k <;> decide

/-- The register addresses of a built axis select its registers. -/
theorem decodeAddr_axisAddr {k : NAxes} {n : Axis} (h : k.has n = true) (r : AxisReg) :
    decodeAddr k (axisAddr n r) = .reg n r := by
  cases k <;> cases n <;> cases r <;> first | rfl | exact absurd h (by decide)

end Sys2Proof
end

