-- ==== Sys2Proof/Laws/State.lean ====
section
/-! SUPPORT. One lemma per field of the state and per update of it. -/

namespace Sys2Proof.Machine

variable (s : State) (n : Axis) (f : AxisState → AxisState) (g : Axis → AxisState → AxisState) (r : Option Word)

/-! ### `State.answer` -/

@[simp] theorem State.answer_build : (s.answer r).build = s.build := rfl
@[simp] theorem State.answer_azimuth : (s.answer r).azimuth = s.azimuth := rfl
@[simp] theorem State.answer_elevation : (s.answer r).elevation = s.elevation := rfl
@[simp] theorem State.answer_rdata : (s.answer r).rdata = r := rfl
@[simp] theorem State.answer_pending : (s.answer r).pending = s.pending := rfl
@[simp] theorem State.answer_cycle : (s.answer r).cycle = s.cycle := rfl
@[simp] theorem State.answer_axis? : (s.answer r).axis? n = s.axis? n := by cases n <;> rfl
@[simp] theorem State.answer_input : (s.answer r).input = s.input := rfl
@[simp] theorem State.answer_raw : (s.answer r).raw n = s.raw n := rfl

/-! ### `State.mapAxes` -/

@[simp] theorem State.mapAxes_build : (s.mapAxes g).build = s.build := rfl
@[simp] theorem State.mapAxes_azimuth : (s.mapAxes g).azimuth = g .azimuth s.azimuth := rfl
@[simp] theorem State.mapAxes_elevation : (s.mapAxes g).elevation = s.elevation.map (g .elevation) := rfl
@[simp] theorem State.mapAxes_rdata : (s.mapAxes g).rdata = s.rdata := rfl
@[simp] theorem State.mapAxes_pending : (s.mapAxes g).pending = s.pending := rfl
@[simp] theorem State.mapAxes_cycle : (s.mapAxes g).cycle = s.cycle := rfl
@[simp] theorem State.mapAxes_axis? : (s.mapAxes g).axis? n = (s.axis? n).map (g n) := by cases n <;> rfl
@[simp] theorem State.mapAxes_input : (s.mapAxes g).input = s.input := rfl
@[simp] theorem State.mapAxes_raw : (s.mapAxes g).raw n = s.raw n := rfl

/-! ### `State.updateAxis` -/

@[simp] theorem State.updateAxis_build : (s.updateAxis n f).build = s.build := by cases n <;> rfl
@[simp] theorem State.updateAxis_rdata : (s.updateAxis n f).rdata = s.rdata := by cases n <;> rfl
@[simp] theorem State.updateAxis_pending : (s.updateAxis n f).pending = s.pending := by cases n <;> rfl
@[simp] theorem State.updateAxis_cycle : (s.updateAxis n f).cycle = s.cycle := by cases n <;> rfl
@[simp] theorem State.updateAxis_input : (s.updateAxis n f).input = s.input := by cases n <;> rfl
@[simp] theorem State.updateAxis_raw (m : Axis) : (s.updateAxis n f).raw m = s.raw m := by cases n <;> rfl
@[simp] theorem State.updateAxis_axis?_self : (s.updateAxis n f).axis? n = (s.axis? n).map f := by cases n <;> rfl

theorem State.updateAxis_axis?_of_ne {m : Axis} (h : m ≠ n) : (s.updateAxis n f).axis? m = s.axis? m := by
  cases n <;> cases m <;> simp_all <;> rfl

/-! ### `State.advance` -/

@[simp] theorem State.advance_build : s.advance.build = s.build := rfl
@[simp] theorem State.advance_rdata : s.advance.rdata = s.rdata := rfl
@[simp] theorem State.advance_pending : s.advance.pending = s.pending.tail := rfl
@[simp] theorem State.advance_cycle : s.advance.cycle = s.cycle + 1 := rfl
@[simp] theorem State.advance_azimuth : s.advance.azimuth = s.azimuth.shift (s.raw .azimuth) := rfl
@[simp] theorem State.advance_elevation :
    s.advance.elevation = s.elevation.map (fun a => a.shift (s.raw .elevation)) := rfl
@[simp] theorem State.advance_axis? : s.advance.axis? n = (s.axis? n).map (fun a => a.shift (s.raw n)) := by
  cases n <;> rfl

/-! ### Updates of an axis -/

variable (a : AxisState) (raw : AxisLevels)

@[simp] theorem AxisState.shift_pos : (a.shift raw).pos = a.pos := rfl
@[simp] theorem AxisState.shift_aPrev : (a.shift raw).aPrev = a.aPrev := rfl
@[simp] theorem AxisState.shift_home : (a.shift raw).home = a.home := rfl
@[simp] theorem AxisState.shift_hlvlPrev : (a.shift raw).hlvlPrev = a.hlvlPrev := rfl
@[simp] theorem AxisState.shift_out : (a.shift raw).out = a.out := rfl
@[simp] theorem AxisState.shift_sync : (a.shift raw).sync = (raw :: a.sync).dropLast := rfl

@[simp] theorem AxisState.applyQd_home (w : WrapMode) (act : QdAction) : (a.applyQd w act).home = a.home := by
  cases act <;> rfl
@[simp] theorem AxisState.applyQd_hlvlPrev (w : WrapMode) (act : QdAction) :
    (a.applyQd w act).hlvlPrev = a.hlvlPrev := by cases act <;> rfl
@[simp] theorem AxisState.applyQd_out (w : WrapMode) (act : QdAction) : (a.applyQd w act).out = a.out := by
  cases act <;> rfl
@[simp] theorem AxisState.applyQd_sync (w : WrapMode) (act : QdAction) : (a.applyQd w act).sync = a.sync := by
  cases act <;> rfl
@[simp] theorem AxisState.applyHome_pos (act : HomeAction) : (a.applyHome act).pos = a.pos := by cases act <;> rfl
@[simp] theorem AxisState.applyHome_aPrev (act : HomeAction) : (a.applyHome act).aPrev = a.aPrev := by
  cases act <;> rfl
@[simp] theorem AxisState.applyHome_out (act : HomeAction) : (a.applyHome act).out = a.out := by cases act <;> rfl
@[simp] theorem AxisState.applyHome_sync (act : HomeAction) : (a.applyHome act).sync = a.sync := by
  cases act <;> rfl
@[simp] theorem AxisState.resetRegs_sync (b : Build) : (a.resetRegs b).sync = a.sync := rfl

end Sys2Proof.Machine
end

