-- ==== Sys2Proof/Laws/Ops.lean ====
section
/-! SUPPORT. What each shared operation can do, said once: the quadrature and home rows an axis selects, the position wrap, the drive function, the synchronisers, the reset cycle, and the composition of operations. -/

namespace Sys2Proof.Machine

/-! ### Words and the wrap -/

theorem sint32_word32 (v : Int) : sint32 (word32 v) = v.bmod (2 ^ 32) := by
  simp [sint32, word32, BitVec.toInt_ofInt]

theorem word32_sint32 (w : Word) : word32 (sint32 w) = w := by simp [sint32, word32]

theorem sint32_lower (w : Word) : -(2 : Int) ^ 31 ≤ sint32 w := by
  have h := BitVec.le_toInt w
  simpa [sint32] using h

theorem sint32_upper (w : Word) : sint32 w < (2 : Int) ^ 31 := by
  have h := BitVec.toInt_lt (x := w)
  simpa [sint32] using h

theorem sint32_word32_of_range {v : Int} (h₁ : -(2 : Int) ^ 31 ≤ v) (h₂ : v < (2 : Int) ^ 31) :
    sint32 (word32 v) = v := by
  rw [sint32_word32]
  exact Int.bmod_eq_of_le (by norm_num; omega) (by norm_num; omega)

/-- The truncated remainder by `WRAP_MOD` always lies in the range of R37. -/
theorem trem_wrapMod_range (v : Int) : -Config.wrapMod < trem v Config.wrapMod ∧ trem v Config.wrapMod < Config.wrapMod := by
  unfold trem Config.wrapMod
  rcases Int.le_total 0 v with h | h
  · have := Int.tmod_nonneg (b := 1000000) h
    have := Int.tmod_lt_of_pos v (b := 1000000) (by norm_num)
    omega
  · have h₁ := Int.neg_tmod (a := v) (b := 1000000)
    have := Int.tmod_nonneg (a := -v) (b := 1000000) (by omega)
    have := Int.tmod_lt_of_pos (-v) (b := 1000000) (by norm_num)
    omega

/-! ### The driver's arithmetic -/

/-- The clamp with its bounds written out (R150). -/
theorem clampSpeed_eq (s : Int) : clampSpeed s = if s < -255 then -255 else if s > 255 then 255 else s := rfl

theorem driveClass_of_stop {c : Int} (h₁ : -10 ≤ c) (h₂ : c ≤ 10) : driveClass c = .stop c := by
  unfold driveClass Config.deadzone
  rw [if_neg (by omega), if_neg (by omega)]

theorem driveClass_of_forward {c : Int} (h : 11 ≤ c) : driveClass c = .forward c := by
  unfold driveClass Config.deadzone
  rw [if_pos (by omega)]

theorem driveClass_of_reverse {c : Int} (h : c ≤ -11) : driveClass c = .reverse c := by
  unfold driveClass Config.deadzone
  rw [if_neg (by omega), if_pos (by omega)]

/-- A word of a clamped command reads back as the command. -/
theorem clampSpeed_sint32_word32 {c : Int} (h₁ : -255 ≤ c) (h₂ : c ≤ 255) : clampSpeed (sint32 (word32 c)) = c := by
  rw [sint32_word32_of_range (by omega) (by omega), clampSpeed_eq, if_neg (by omega), if_neg (by omega)]

/-! ### The decode rows an axis selects -/

/-- The quadrature row as a case analysis of the samples (R74). -/
theorem decodeQd_qdWord (en aPrev qa qb : Level) :
    decodeQd (qdWord en aPrev qa qb) =
      match en, aPrev, qa, qb with
      | false, _, _, _ => .noSample aPrev qa qb
      | true, false, true, true => .inc
      | true, false, true, false => .dec
      | true, false, false, _ => .holdLow qb
      | true, true, _, _ => .holdHigh qa qb := by
  cases en <;> cases aPrev <;> cases qa <;> cases qb <;> rfl

/-- The home row as a case analysis of the levels (R75). -/
theorem decodeHome_homeWord (hlvlPrev homeN : Level) :
    decodeHome (homeWord hlvlPrev homeN) =
      match hlvlPrev, homeN with
      | true, false => .fall
      | false, true => .rise
      | false, false => .holdLow
      | true, true => .holdHigh := by
  cases hlvlPrev <;> cases homeN <;> rfl

/-- The position after the row an axis selects: a count on a rising edge of A, else no change (R101 to R103). -/
theorem AxisState.qdAction_pos (w : WrapMode) (en : Bool) (q : AxisLevels) (a : AxisState) :
    (a.applyQd w (a.qdAction en q)).pos =
      if en && !a.aPrev && q.qa then countPos w a.pos (if q.qb then 1 else -1) else a.pos := by
  rcases q with ⟨qa, qb, h⟩
  rw [AxisState.qdAction, decodeQd_qdWord]
  cases en <;> cases a.aPrev <;> cases qa <;> cases qb <;> rfl

/-- The reference sample after the row an axis selects (R104). -/
theorem AxisState.qdAction_aPrev (w : WrapMode) (en : Bool) (q : AxisLevels) (a : AxisState) :
    (a.applyQd w (a.qdAction en q)).aPrev = if en then q.qa else a.aPrev := by
  rcases q with ⟨qa, qb, h⟩
  rcases a with ⟨pos, aPrev, home, hlvl, out, sync⟩
  rw [AxisState.qdAction, decodeQd_qdWord]
  cases en <;> cases aPrev <;> cases qa <;> cases qb <;> rfl

/-- The flag after the row an axis selects: recomputed on a change of level only (R130 to R132). -/
theorem AxisState.homeAction_home (q : AxisLevels) (a : AxisState) :
    (a.applyHome (a.homeAction q)).home = if a.hlvlPrev = q.homeN then a.home else !q.homeN := by
  rcases q with ⟨qa, qb, h⟩
  rw [AxisState.homeAction, decodeHome_homeWord]
  cases a.hlvlPrev <;> cases h <;> rfl

/-- The reference level after the row an axis selects is the sample, in every row (R133). -/
theorem AxisState.homeAction_hlvlPrev (q : AxisLevels) (a : AxisState) :
    (a.applyHome (a.homeAction q)).hlvlPrev = q.homeN := by
  rcases a with ⟨pos, aPrev, home, hlvl, out, sync⟩
  rcases q with ⟨qa, qb, h⟩
  rw [AxisState.homeAction, decodeHome_homeWord]
  cases hlvl <;> cases h <;> rfl

/-! ### The synchronisers -/

@[simp] theorem AxisState.shift_sync_length (raw : AxisLevels) (a : AxisState) :
    (a.shift raw).sync.length = a.sync.length := by simp

/-- With the stages newest first behind the pins' levels, the sample is the last of the list (R227). -/
theorem AxisState.sample_eq_getLast (raw : AxisLevels) (a : AxisState) :
    some (a.sample raw) = (raw :: a.sync).getLast? := by
  cases h : a.sync <;> simp [AxisState.sample, h, List.getLastD, List.getLast?_eq_some_getLast]

/-! ### Composition -/

@[simp] theorem andThen_next (s : State) (f : State → Host.Outcome State Fault Refusal) : andThen (.next s) f = f s := rfl

theorem runActions_append (is js : List Instr) (s : State) :
    runActions (is ++ js) s = andThen (runActions is s) (runActions js) := by
  induction is generalizing s with
  | nil => rfl
  | cons i is ih =>
    simp only [List.cons_append, runActions]
    cases exec i s <;> simp [andThen, ih]

/-- A quadrature row of an axis is the tracker's action there. -/
theorem exec_qdInstr (n : Axis) (act : QdAction) (s : State) : exec (qdInstr n act) s = .next (s.track n act) := by
  cases act <;> rfl

/-- A home row of an axis is the latch's action there. -/
theorem exec_homeInstr (n : Axis) (act : HomeAction) (s : State) : exec (homeInstr n act) s = .next (s.latch n act) := by
  cases act <;> rfl

/-- A driver class of an axis drives its outputs. -/
theorem exec_driveInstr (n : Axis) (c : DriveClass) (s : State) :
    exec (driveInstr n c) s = .next (s.driveAxis n (classOutputs s.build.wiring c)) := by
  cases c <;> rfl

/-- Reset wins over everything in its cycle (R202, R220). -/
theorem step_of_rst {s : State} (h : s.input.rst = true) : step s = .next s.resetCycle := by
  simp [step, runCycle, h]

/-- A cycle without reset runs the cycle's operations and then ends. -/
theorem step_of_not_rst {s : State} (h : s.input.rst = false) :
    step s = andThen (runActions s.cycleActions s) (fun t => .next t.advance) := by
  simp [step, runCycle, h]

end Sys2Proof.Machine
end

