-- ==== Sys2Proof/Laws/PerInstr.lean ====
section
/-! SUPPORT. Facts about every operation as syntax, one lemma per constructor of `Instr`: the encoded bits fit the operation's row of opcode_table.json. -/

namespace Sys2Proof.Laws

/-- Bit 8 of a read code is 0 (R70). -/
theorem we_bit_read (addr : Byte) : (0#1 ++ addr).toNat &&& 0x100 = 0 := by
  revert addr; decide

/-- Bit 8 of a write code is 1 (R70). -/
theorem we_bit_write (addr : Byte) : (1#1 ++ addr).toNat &&& 0x100 = 0x100 := by
  revert addr; decide

end Sys2Proof.Laws

namespace Sys2Proof.Laws.FitsRow

/-- The bits an operation encodes to, under its row's mask, are its row's match value (R72, R74, R75). -/
def Statement (i : Instr) : Prop :=
  ∀ p v, i.pattern = some p → (encode i).tableBits = some v → v &&& p.mask = p.value

theorem rdPos (n : Axis) : Statement (.rdPos n) := by
  rintro p v ⟨⟩ ⟨⟩; cases n <;> decide
theorem wrPos (n : Axis) (wdata : Word) : Statement (.wrPos n wdata) := by
  rintro p v ⟨⟩ ⟨⟩; cases n <;> dsimp only <;> decide
theorem rdStat (n : Axis) : Statement (.rdStat n) := by
  rintro p v ⟨⟩ ⟨⟩; cases n <;> decide
theorem wrStat (n : Axis) (wdata : Word) : Statement (.wrStat n wdata) := by
  rintro p v ⟨⟩ ⟨⟩; cases n <;> dsimp only <;> decide
theorem rdSpeed (n : Axis) : Statement (.rdSpeed n) := by
  rintro p v ⟨⟩ ⟨⟩; cases n <;> decide
theorem wrSpeed (n : Axis) (wdata : Word) : Statement (.wrSpeed n wdata) := by
  rintro p v ⟨⟩ ⟨⟩; cases n <;> dsimp only <;> decide
theorem rdDrv (n : Axis) : Statement (.rdDrv n) := by
  rintro p v ⟨⟩ ⟨⟩; cases n <;> decide
theorem wrDrv (n : Axis) (wdata : Word) : Statement (.wrDrv n wdata) := by
  rintro p v ⟨⟩ ⟨⟩; cases n <;> dsimp only <;> decide
theorem rdCfg : Statement .rdCfg := by rintro p v ⟨⟩ ⟨⟩; decide
theorem wrCfg (wdata : Word) : Statement (.wrCfg wdata) := by rintro p v ⟨⟩ ⟨⟩; dsimp only; decide
theorem rdPoll : Statement .rdPoll := by rintro p v ⟨⟩ ⟨⟩; dsimp only; decide
theorem wrPoll (wdata : Word) : Statement (.wrPoll wdata) := by rintro p v ⟨⟩ ⟨⟩; dsimp only; decide
theorem rdUnmapped (addr : Byte) : Statement (.rdUnmapped addr) := by
  rintro p v ⟨⟩ ⟨⟩
  exact Sys2Proof.Laws.we_bit_read addr
theorem wrUnmapped (addr : Byte) (wdata : Word) : Statement (.wrUnmapped addr wdata) := by
  rintro p v ⟨⟩ ⟨⟩
  exact Sys2Proof.Laws.we_bit_write addr
theorem idle : Statement .idle := by rintro p v ⟨⟩
theorem qdNosample (n : Axis) (aPrev qa qb : Level) : Statement (.qdNosample n aPrev qa qb) := by
  rintro p v ⟨⟩ ⟨⟩; cases aPrev <;> cases qa <;> cases qb <;> decide
theorem qdInc (n : Axis) : Statement (.qdInc n) := by rintro p v ⟨⟩ ⟨⟩; decide
theorem qdDec (n : Axis) : Statement (.qdDec n) := by rintro p v ⟨⟩ ⟨⟩; decide
theorem qdHoldLow (n : Axis) (qb : Level) : Statement (.qdHoldLow n qb) := by
  rintro p v ⟨⟩ ⟨⟩; cases qb <;> decide
theorem qdHoldHigh (n : Axis) (qa qb : Level) : Statement (.qdHoldHigh n qa qb) := by
  rintro p v ⟨⟩ ⟨⟩; cases qa <;> cases qb <;> decide
theorem homeFall (n : Axis) : Statement (.homeFall n) := by rintro p v ⟨⟩ ⟨⟩; decide
theorem homeRise (n : Axis) : Statement (.homeRise n) := by rintro p v ⟨⟩ ⟨⟩; decide
theorem homeHoldLow (n : Axis) : Statement (.homeHoldLow n) := by rintro p v ⟨⟩ ⟨⟩; decide
theorem homeHoldHigh (n : Axis) : Statement (.homeHoldHigh n) := by rintro p v ⟨⟩ ⟨⟩; decide
theorem drvStop (n : Axis) (c : Int) : Statement (.drvStop n c) := by rintro p v ⟨⟩
theorem drvFwd (n : Axis) (c : Int) : Statement (.drvFwd n c) := by rintro p v ⟨⟩
theorem drvRev (n : Axis) (c : Int) : Statement (.drvRev n c) := by rintro p v ⟨⟩

end Sys2Proof.Laws.FitsRow
end

