-- ==== Sys2Proof/Tests/Slice0.lean ====
section
/-! SUPPORT. The model's own tests: ill-formed terms that WellFormed refuses, words written out from the spec's encodings, one-step tests against the vectors of 95_test_vectors.md, and for each statement with hypotheses a witness that meets them. -/

namespace Sys2Proof.Tests

open Sys2Proof Sys2Proof.Machine

/-! ### Helpers -/

/-- The next state, where there is one. -/
def resultOf (o : Host.Outcome State Fault Refusal) : Option State :=
  match o with
  | .next s => some s
  | .fault _ => none
  | .refused _ => none

/-- A build with one synchroniser stage, so that the sample of a cycle stands in the state and the pins do not reach it yet. -/
def build (k : NAxes) (m : SampleMode) (wr : WrapMode) (wi : Wiring) : Build :=
  { nAxes := k, sampleMode := m, wrapMode := wr, wiring := wi, syncStages := 1 }

def bDual : Build := build .two .continuous .native .twoDirection
def bSingle : Build := build .one .polled .mod .twoEnable

/-- Levels from three bits. -/
def lv (qa qb homeN : Level) : AxisLevels := { qa := qa, qb := qb, homeN := homeN }

/-- A request. -/
def rq (code : BitVec 9) (wdata : Word) : Option Request := some { code := code, wdata := wdata }

/-- A coming cycle, with the pins quiet. -/
def cyc (rst : Bool) (req : Option Request) : CycleInput := { rst := rst, req := req, pins := Config.quietPins }

/-- An axis in motion forward at 100, with the given position and references, and `q` as the coming sample. -/
def axisOf (b : Build) (pos : Int) (aPrev home hlvl : Bool) (q : AxisLevels) : AxisState :=
  { pos := word32 pos, aPrev := aPrev, home := home, hlvlPrev := hlvl, out := drive b.wiring 100,
    sync := List.replicate b.syncStages q }

/-- Every axis of the build alike, the given cycles to come. -/
def st (b : Build) (pos : Int) (aPrev home hlvl : Bool) (q : AxisLevels) (cs : List CycleInput) : State :=
  { build := b
    azimuth := axisOf b pos aPrev home hlvl q
    elevation := match b.nAxes with
      | .one => none
      | .two => some (axisOf b pos aPrev home hlvl q)
    rdata := none
    pending := cs
    cycle := 0 }

/-- A plain state: position 5, quiet samples already latched, one request to come. -/
def plain (b : Build) (req : Option Request) : State := st b 5 false false true Config.quietLevels [cyc false req]

theorem st_fits (b : Build) (pos : Int) (aPrev home hlvl : Bool) (q : AxisLevels) (cs : List CycleInput) :
    (st b pos aPrev home hlvl q cs).FitsBuild := by
  rcases b with ⟨k, m, wr, wi, n⟩
  constructor
  · cases k <;> simp [st]
  · intro ax a h
    cases k <;> cases ax <;> simp [st, State.axis?] at h <;> subst h <;> simp [st, axisOf]

/-! ### WellFormed refuses -/

theorem test_illformed_absent_axis :
    wellFormed .one (.rdPos .elevation) = false ∧ wellFormed .one (.wrPos .elevation 0#32) = false ∧
    wellFormed .one (.rdStat .elevation) = false ∧ wellFormed .one (.wrStat .elevation 0#32) = false ∧
    wellFormed .one (.rdSpeed .elevation) = false ∧ wellFormed .one (.wrSpeed .elevation 0#32) = false ∧
    wellFormed .one (.rdDrv .elevation) = false ∧ wellFormed .one (.wrDrv .elevation 0#32) = false ∧
    wellFormed .one (.qdNosample .elevation false false false) = false ∧ wellFormed .one (.qdInc .elevation) = false ∧
    wellFormed .one (.qdDec .elevation) = false ∧ wellFormed .one (.qdHoldLow .elevation false) = false ∧
    wellFormed .one (.qdHoldHigh .elevation false false) = false ∧ wellFormed .one (.homeFall .elevation) = false ∧
    wellFormed .one (.homeRise .elevation) = false ∧ wellFormed .one (.homeHoldLow .elevation) = false ∧
    wellFormed .one (.homeHoldHigh .elevation) = false ∧ wellFormed .one (.drvStop .elevation 0) = false ∧
    wellFormed .one (.drvFwd .elevation 100) = false ∧ wellFormed .one (.drvRev .elevation (-100)) = false := by decide

theorem test_illformed_mapped_address :
    wellFormed .one (.rdUnmapped 0x20#8) = false ∧ wellFormed .one (.wrUnmapped 0x08#8 0#32) = false ∧
    wellFormed .two (.rdUnmapped 0x1C#8) = false ∧ wellFormed .one (.rdUnmapped 0x1C#8) = true := by decide

theorem test_illformed_driver_class :
    wellFormed .one (.drvStop .azimuth 11) = false ∧ wellFormed .one (.drvStop .azimuth (-11)) = false ∧
    wellFormed .one (.drvFwd .azimuth 10) = false ∧ wellFormed .one (.drvFwd .azimuth 256) = false ∧
    wellFormed .one (.drvRev .azimuth (-10)) = false ∧ wellFormed .one (.drvRev .azimuth (-256)) = false := by decide

/-! ### Decoding of words written out from R72, R74, R75, R76 -/

/-- The encodings `0000n0000`, `1000n0000`, `0000n0100`, `1000n0100` (R72). -/
theorem test_decode_pos_stat :
    decode .two (.bus (rq 0b000000000#9 9#32)) = .rdPos .azimuth ∧ decode .two (.bus (rq 0b000010000#9 0#32)) = .rdPos .elevation ∧
    decode .two (.bus (rq 0b100000000#9 9#32)) = .wrPos .azimuth 9#32 ∧
    decode .two (.bus (rq 0b100010000#9 9#32)) = .wrPos .elevation 9#32 ∧
    decode .two (.bus (rq 0b000000100#9 0#32)) = .rdStat .azimuth ∧ decode .two (.bus (rq 0b000010100#9 0#32)) = .rdStat .elevation ∧
    decode .two (.bus (rq 0b100000100#9 1#32)) = .wrStat .azimuth 1#32 ∧
    decode .two (.bus (rq 0b100010100#9 1#32)) = .wrStat .elevation 1#32 := by decide

/-- The encodings `0000n1000`, `1000n1000`, `0000n1100`, `1000n1100` (R72). -/
theorem test_decode_speed_drv :
    decode .two (.bus (rq 0b000001000#9 0#32)) = .rdSpeed .azimuth ∧ decode .two (.bus (rq 0b000011000#9 0#32)) = .rdSpeed .elevation ∧
    decode .two (.bus (rq 0b100001000#9 0x80000001#32)) = .wrSpeed .azimuth 0x80000001#32 ∧
    decode .two (.bus (rq 0b100011000#9 0x80000001#32)) = .wrSpeed .elevation 0x80000001#32 ∧
    decode .two (.bus (rq 0b000001100#9 0#32)) = .rdDrv .azimuth ∧ decode .two (.bus (rq 0b000011100#9 0#32)) = .rdDrv .elevation ∧
    decode .two (.bus (rq 0b100001100#9 3#32)) = .wrDrv .azimuth 3#32 ∧
    decode .two (.bus (rq 0b100011100#9 3#32)) = .wrDrv .elevation 3#32 := by decide

/-- The encodings `000100000`, `100100000`, `000100100`, `100100100` and REQ_V = 0 (R72). -/
theorem test_decode_global :
    decode .one (.bus (rq 0b000100000#9 0#32)) = .rdCfg ∧ decode .one (.bus (rq 0b100100000#9 5#32)) = .wrCfg 5#32 ∧
    decode .one (.bus (rq 0b000100100#9 0#32)) = .rdPoll ∧ decode .one (.bus (rq 0b100100100#9 5#32)) = .wrPoll 5#32 ∧
    decode .one (.bus none) = .idle := by decide

/-- B5 to B8, B15: misaligned, axis 1 of a one-axis build, unnamed addresses (`0xxxxxxxx`, `1xxxxxxxx`). -/
theorem test_decode_unmapped :
    decode .two (.bus (rq 0b000000001#9 0#32)) = .rdUnmapped 0x01#8 ∧ decode .two (.bus (rq 0b100001001#9 100#32)) = .wrUnmapped 0x09#8 100#32 ∧
    decode .one (.bus (rq 0b000010000#9 0#32)) = .rdUnmapped 0x10#8 ∧
    decode .one (.bus (rq 0b100011000#9 100#32)) = .wrUnmapped 0x18#8 100#32 ∧
    decode .two (.bus (rq 0b000110000#9 0#32)) = .rdUnmapped 0x30#8 ∧ decode .two (.bus (rq 0b100101000#9 1#32)) = .wrUnmapped 0x28#8 1#32 := by decide

/-- The rows `0xxx`, `1011`, `1010`, `100x`, `11xx` (R74). -/
theorem test_decode_quadrature :
    decode .two (.qdec .azimuth 0b0011#4) = .qdNosample .azimuth false true true ∧
    decode .two (.qdec .azimuth 0b0100#4) = .qdNosample .azimuth true false false ∧
    decode .two (.qdec .elevation 0b1011#4) = .qdInc .elevation ∧ decode .two (.qdec .azimuth 0b1010#4) = .qdDec .azimuth ∧
    decode .two (.qdec .azimuth 0b1001#4) = .qdHoldLow .azimuth true ∧ decode .two (.qdec .azimuth 0b1000#4) = .qdHoldLow .azimuth false ∧
    decode .two (.qdec .azimuth 0b1101#4) = .qdHoldHigh .azimuth false true ∧
    decode .two (.qdec .elevation 0b1110#4) = .qdHoldHigh .elevation true false := by decide

/-- The rows `10`, `01`, `00`, `11` (R75). -/
theorem test_decode_home :
    decode .two (.home .azimuth 0b10#2) = .homeFall .azimuth ∧ decode .two (.home .elevation 0b01#2) = .homeRise .elevation ∧
    decode .two (.home .azimuth 0b00#2) = .homeHoldLow .azimuth ∧ decode .two (.home .azimuth 0b11#2) = .homeHoldHigh .azimuth := by decide

/-- The conditions on `c` (R76), at both ends of each range and past the clamp. -/
theorem test_decode_drive :
    decode .two (.drive .azimuth 0x0000000A#32) = .drvStop .azimuth 10 ∧ decode .two (.drive .azimuth 0xFFFFFFF6#32) = .drvStop .azimuth (-10) ∧
    decode .two (.drive .azimuth 0x0000000B#32) = .drvFwd .azimuth 11 ∧ decode .two (.drive .azimuth 0x7FFFFFFF#32) = .drvFwd .azimuth 255 ∧
    decode .two (.drive .elevation 0xFFFFFFF5#32) = .drvRev .elevation (-11) ∧
    decode .two (.drive .azimuth 0x80000000#32) = .drvRev .azimuth (-255) := by decide

/-- The host's entry on whole-byte words of the table's rows. -/
theorem test_decode_table_words :
    decodeTableWord 16 0x000 = some (.rdPos .azimuth) ∧ decodeTableWord 16 0x118 = some (.wrSpeed .elevation 0#32) ∧
    decodeTableWord 16 0x124 = some (.wrPoll 0#32) ∧ decodeTableWord 16 0x001 = some (.rdUnmapped 0x01#8) ∧
    decodeTableWord 8 0xB = some (.qdInc .azimuth) ∧ decodeTableWord 8 0x2 = some (.homeFall .azimuth) ∧
    decodeTableWord 8 0x0 = some (.qdNosample .azimuth false false false) := by decide

/-- A word with stray bits or of an unknown width is rejected by name. -/
theorem test_decode_table_rejects :
    decodeTableWord 16 0x200 = none ∧ decodeTableWord 8 0x10 = none ∧ decodeTableWord 24 0 = none ∧ decodeTableWord 1 1 = none := by decide

/-! ### One-step tests: quadrature (95_test_vectors.md section 2.1) -/

/-- The position and the reference after one cycle of a continuous build with these references and samples. -/
def qdStep (wr : WrapMode) (pos : Int) (aPrev qa qb : Level) : Option (Int × Level) :=
  (resultOf (step (st (build .one .continuous wr .twoEnable) pos aPrev false true (lv qa qb true) [cyc false none]))).map
    (fun t => (sint32 t.azimuth.pos, t.azimuth.aPrev))

/-- Q4 and W1. -/
theorem test_qdInc : qdStep .native 5 false true true = some (6, true) ∧ qdStep .mod 999999 false true true = some (0, true) := by decide

/-- W7 and W8. -/
theorem test_qdInc_wrap :
    qdStep .mod (-999999) false true true = some (-999998, true) ∧
    qdStep .native 2147483647 false true true = some (-2147483648, true) := by decide

/-- Q3 and W4. -/
theorem test_qdDec : qdStep .native 5 false true false = some (4, true) ∧ qdStep .mod (-999999) false true false = some (0, true) := by decide

/-- W3 and W9. -/
theorem test_qdDec_wrap :
    qdStep .mod 0 false true false = some (-1, true) ∧ qdStep .native (-2147483648) false true false = some (2147483647, true) := by decide

/-- Q1 and Q2. -/
theorem test_qdHoldLow : qdStep .native 5 false false false = some (5, false) ∧ qdStep .native 5 false false true = some (5, false) := by decide

/-- Q5 to Q8. -/
theorem test_qdHoldHigh :
    qdStep .native 5 true false false = some (5, false) ∧ qdStep .native 5 true false true = some (5, false) ∧
    qdStep .native 5 true true false = some (5, true) ∧ qdStep .native 5 true true true = some (5, true) := by decide

/-- Q9 and Q10: `POLLED`, no poll. -/
theorem test_qdNosample :
    (resultOf (step (st bSingle 5 false false true (lv true true true) [cyc false none]))).map (fun t => (sint32 t.azimuth.pos, t.azimuth.aPrev))
      = some (5, false) ∧
    (resultOf (step (st bSingle 5 true false true (lv false false true) [cyc false none]))).map (fun t => (sint32 t.azimuth.pos, t.azimuth.aPrev))
      = some (5, true) := by decide

/-- R107: a poll samples once and counts once; WDATA does not matter. -/
theorem test_wrPoll_polled :
    (resultOf (step (st bSingle 5 false false true (lv true true true) [cyc false (rq 0x124#9 77#32)]))).map
      (fun t => (sint32 t.azimuth.pos, t.azimuth.aPrev)) = some (6, true) := by decide

/-- P4 cycle 7: in `CONTINUOUS` mode a poll causes no second count. -/
theorem test_wrPoll_continuous :
    (resultOf (step (st bDual 5 false false true (lv true true true) [cyc false (rq 0x124#9 0#32)]))).map
      (fun t => (sint32 t.azimuth.pos, t.elevation.map (fun e => sint32 e.pos))) = some (6, some 6) := by decide

/-! ### One-step tests: home latch (section 2.2) -/

/-- HOME, HLVL_PREV and the STAT word after one cycle. -/
def homeStep (home hlvl homeN : Level) : Option (Bool × Level × Word) :=
  (resultOf (step (st bSingle 5 false home hlvl (lv false false homeN) [cyc false (rq 0x000#9 0#32)]))).map
    (fun t => (t.azimuth.home, t.azimuth.hlvlPrev, t.readWord 0x04#8))

/-- H1, in a `POLLED` build in the cycle of another request (R134). -/
theorem test_homeFall : homeStep false true false = some (true, false, 0x00000001#32) := by decide

/-- H2 and H3. -/
theorem test_homeRise :
    homeStep true false true = some (false, true, 0x00000004#32) ∧ homeStep false false true = some (false, true, 0x00000004#32) := by decide

/-- H4 and H5. -/
theorem test_homeHoldLow :
    homeStep false false false = some (false, false, 0x00000000#32) ∧ homeStep true false false = some (true, false, 0x00000001#32) := by decide

/-- H6. -/
theorem test_homeHoldHigh : homeStep false true true = some (false, true, 0x00000004#32) := by decide

/-! ### One-step tests: driver (section 2.3) -/

/-- DRV0 after a write of SPEED0 from a state in motion. -/
def speedStep (wi : Wiring) (w : Word) : Option Word :=
  (resultOf (step (plain (build .two .continuous .native wi) (rq 0x108#9 w)))).map (fun t => t.readWord 0x0C#8)

theorem test_wrSpeed_twoEnable :
    speedStep .twoEnable 0x80000000#32 = some 0x0000FF00#32 ∧ speedStep .twoEnable 0xFFFFFFF5#32 = some 0x00000B00#32 ∧
    speedStep .twoEnable 0xFFFFFFF6#32 = some 0x0000FF01#32 ∧ speedStep .twoEnable 0x0000000A#32 = some 0x0000FF01#32 ∧
    speedStep .twoEnable 0x0000000B#32 = some 0x0000F401#32 ∧ speedStep .twoEnable 0x00000064#32 = some 0x00009B01#32 ∧
    speedStep .twoEnable 0x000003E8#32 = some 0x00000001#32 := by decide

theorem test_wrSpeed_twoDirection :
    speedStep .twoDirection 0xFFFFFF00#32 = some 0x0000FF02#32 ∧ speedStep .twoDirection 0xFFFFFF9C#32 = some 0x00006402#32 ∧
    speedStep .twoDirection 0xFFFFFFFF#32 = some 0x00000003#32 ∧ speedStep .twoDirection 0x0000000B#32 = some 0x00000B01#32 ∧
    speedStep .twoDirection 0x000000FE#32 = some 0x0000FE01#32 ∧ speedStep .twoDirection 0x7FFFFFFF#32 = some 0x0000FF01#32 := by decide

theorem test_drvStop :
    (resultOf (exec (.drvStop .azimuth (-10)) (plain bSingle none))).map (fun t => t.readWord 0x0C#8) = some 0x0000FF01#32 ∧
    (resultOf (exec (.drvStop .elevation 10) (plain bDual none))).map (fun t => t.readWord 0x1C#8) = some 0x00000003#32 := by decide

theorem test_drvFwd :
    (resultOf (exec (.drvFwd .azimuth 244) (plain bSingle none))).map (fun t => t.readWord 0x0C#8) = some 0x00000B01#32 ∧
    (resultOf (exec (.drvFwd .elevation 244) (plain bDual none))).map (fun t => t.readWord 0x1C#8) = some 0x0000F401#32 := by decide

theorem test_drvRev :
    (resultOf (exec (.drvRev .azimuth (-254)) (plain bSingle none))).map (fun t => t.readWord 0x0C#8) = some 0x0000FE00#32 ∧
    (resultOf (exec (.drvRev .elevation (-254)) (plain bDual none))).map (fun t => t.readWord 0x1C#8) = some 0x0000FE02#32 := by decide

/-! ### One-step tests: bus and configuration (section 2.4) -/

/-- The read data of a cycle that serves this request. -/
def readStep (s : State) : Option Word := (resultOf (step s)).bind (fun t => t.rdata)

/-- R63: the read in a counting cycle returns the old value. -/
theorem test_rdPos :
    readStep (st bDual (-1) false false true (lv true true true) [cyc false (rq 0x010#9 0#32)]) = some 0xFFFFFFFF#32 := by decide

/-- P4 cycle 6. -/
theorem test_rdStat :
    readStep (st bDual 0 true true false (lv true false false) [cyc false (rq 0x014#9 0#32)]) = some 0x00000003#32 := by decide

/-- B9. -/
theorem test_rdSpeed : readStep (plain bDual (rq 0x008#9 0#32)) = some 0x00000000#32 := by decide

/-- Section 2.3 at 100. -/
theorem test_rdDrv :
    readStep (plain bDual (rq 0x00C#9 0#32)) = some 0x00006401#32 ∧ readStep (plain bSingle (rq 0x00C#9 0#32)) = some 0x00009B01#32 := by decide

/-- B1 to B4. -/
theorem test_rdCfg :
    readStep ((State.resetOf (Config.singleAxis .twoEnable)).placeRequest (rq 0x020#9 0#32)) = some 0x00020A10#32 ∧
    readStep ((State.resetOf (Config.singleAxis .twoDirection)).placeRequest (rq 0x020#9 0#32)) = some 0x00020A11#32 ∧
    readStep ((State.resetOf (Config.dualAxis .twoEnable)).placeRequest (rq 0x020#9 0#32)) = some 0x00020A26#32 ∧
    readStep ((State.resetOf (Config.dualAxis .twoDirection)).placeRequest (rq 0x020#9 0#32)) = some 0x00020A27#32 := by decide

/-- B10: the read returns 0 and takes no sample. -/
theorem test_rdPoll :
    (resultOf (step (st bSingle 5 false false true (lv true true true) [cyc false (rq 0x024#9 0#32)]))).map
      (fun t => (t.rdata, sint32 t.azimuth.pos)) = some (some 0x00000000#32, 5) := by decide

/-- B5, B7, B15. -/
theorem test_rdUnmapped :
    readStep (plain bDual (rq 0x001#9 0#32)) = some 0#32 ∧ readStep (plain bSingle (rq 0x010#9 0#32)) = some 0#32 ∧
    readStep (plain bDual (rq 0x030#9 0#32)) = some 0#32 := by decide

/-- The registers of axis 0 and CFG after the cycle of a request. -/
def regsAfter (b : Build) (req : Option Request) : Option (List Word) :=
  (resultOf (step (plain b req))).map (fun t => [t.readWord 0x00#8, t.readWord 0x04#8, t.readWord 0x0C#8, t.readWord 0x20#8])

/-- B6, B8: position 5, STAT 4, DRV at 100, CFG as before. -/
theorem test_wrUnmapped :
    regsAfter bDual (rq 0x109#9 0#32) = some [5#32, 4#32, 0x00006401#32, 0x00010A27#32] ∧
    regsAfter bSingle (rq 0x118#9 0#32) = some [5#32, 4#32, 0x00009B01#32, 0x00010A10#32] := by decide

/-- B11. -/
theorem test_wrPos : regsAfter bDual (rq 0x100#9 9#32) = some [5#32, 4#32, 0x00006401#32, 0x00010A27#32] := by decide

/-- B12. -/
theorem test_wrStat : regsAfter bDual (rq 0x104#9 1#32) = some [5#32, 4#32, 0x00006401#32, 0x00010A27#32] := by decide

/-- B13. -/
theorem test_wrDrv : regsAfter bDual (rq 0x10C#9 3#32) = some [5#32, 4#32, 0x00006401#32, 0x00010A27#32] := by decide

/-- B14. -/
theorem test_wrCfg : regsAfter bDual (rq 0x120#9 0#32) = some [5#32, 4#32, 0x00006401#32, 0x00010A27#32] := by decide

theorem test_idle : regsAfter bDual none = some [5#32, 4#32, 0x00006401#32, 0x00010A27#32] ∧ readStep (plain bDual none) = none := by decide

/-- B16: a cycle with `rst = 1` and a read of DRV0. -/
theorem test_reset_cycle :
    (resultOf (step (st bDual 5 true true false (lv true true true) [cyc true (rq 0x00C#9 0#32)]))).map
      (fun t => (t.rdata, t.readWord 0x00#8, t.readWord 0x04#8, t.readWord 0x0C#8)) = some (some 0#32, 0#32, 0#32, 0x00000003#32) := by decide

/-- B17, B18. -/
theorem test_reset_drv :
    (State.resetOf (Config.singleAxis .twoEnable)).readWord 0x0C#8 = 0x0000FF01#32 ∧
    (State.resetOf (Config.singleAxis .twoDirection)).readWord 0x0C#8 = 0x00000003#32 := by decide

/-- R227 with one stage: the pins of this cycle reach the synchroniser, not the state. -/
theorem test_synchroniser :
    (resultOf (step (st bDual 5 false false true Config.quietLevels
        [{ rst := false, req := none, pins := { azimuth := lv true true true, elevation := Config.quietLevels } }]))).map
      (fun t => (sint32 t.azimuth.pos, t.azimuth.sync)) = some (5, [lv true true true]) := by decide

/-- The host's withFetchWord: the very next step runs the word's operation. -/
theorem test_withFetchWord :
    readStep (State.reset.withFetchWord 16 0x00C) = some 0x0000FF01#32 ∧
    (resultOf (step (State.reset.withFetchWord 8 0xB))).map (fun t => sint32 t.azimuth.pos) = some 1 ∧
    (resultOf (step (State.reset.withFetchWord 8 0xA))).map (fun t => sint32 t.azimuth.pos) = some (-1) ∧
    (resultOf (step (State.reset.withFetchWord 8 0x2))).map (fun t => t.azimuth.home) = some true := by decide

/-- A selector with `en = 1` is placed in a `POLLED` build by a poll. -/
theorem test_place_polled :
    (resultOf (step ((plain bSingle none).place (.qdec .azimuth 0b1011#4)))).map (fun t => sint32 t.azimuth.pos) = some 6 := by decide

/-- R79, R80: `pins` takes no cycle and keeps what it omits. -/
theorem test_assemble :
    assemble Config.quietPins [.reset, .pins .azimuth (some true) none none, .wr (.reg .azimuth .speed) (-7), .pollLine] =
      [{ rst := true, req := none, pins := Config.quietPins },
       { rst := false, req := rq 0x108#9 0xFFFFFFF9#32, pins := { azimuth := lv true false true, elevation := Config.quietLevels } },
       { rst := false, req := rq 0x124#9 0#32, pins := { azimuth := lv true false true, elevation := Config.quietLevels } }] := by decide

/-- R55: the word 0xFFF0BDC1 (W5) on its byte lanes. -/
theorem test_byte_lanes :
    let s := st bDual (-999999) false false true Config.quietLevels []
    s.readByte 0x00#8 = 0xC1#8 ∧ s.readByte 0x01#8 = 0xBD#8 ∧ s.readByte 0x02#8 = 0xF0#8 ∧ s.readByte 0x03#8 = 0xFF#8 := by decide

/-! ### Witnesses: concrete states and operands that meet the hypotheses of each statement -/

/-- The state every witness about an axis uses, in the dual build: axis `n` is `axisOf …`; and the one-axis build has no axis 1. -/
theorem witness_axis (n : Axis) (pos : Int) (aPrev home hlvl : Bool) (q : AxisLevels) (cs : List CycleInput) :
    (st bDual pos aPrev home hlvl q cs).axis? n = some (axisOf bDual pos aPrev home hlvl q) ∧
    (st bSingle pos aPrev home hlvl q cs).axis? .elevation = none ∧
    (st bSingle pos aPrev home hlvl q cs).axis? .azimuth = some (axisOf bSingle pos aPrev home hlvl q) := by
  cases n <;> exact ⟨rfl, rfl, rfl⟩

theorem witness_DecodeAfterEncodeIsIdentity :
    wellFormed .two (.wrSpeed .elevation 0xFFFFFFFF#32) = true ∧ wellFormed .two (.rdUnmapped 0xFF#8) = true ∧
    wellFormed .one (.wrUnmapped 0x10#8 1#32) = true ∧ wellFormed .two (.qdHoldHigh .elevation true false) = true ∧
    wellFormed .two (.drvStop .elevation (-10)) = true ∧ wellFormed .two (.drvStop .elevation 10) = true ∧
    wellFormed .two (.drvFwd .elevation 11) = true ∧ wellFormed .two (.drvFwd .elevation 255) = true ∧
    wellFormed .two (.drvRev .elevation (-11)) = true ∧ wellFormed .two (.drvRev .elevation (-255)) = true := by decide

theorem witness_EncodeAfterDecodeKeepsTheBits :
    Encoded.present .one (.bus (rq 0x1FF#9 1#32)) = true ∧ Encoded.present .two (.qdec .elevation 0xF#4) = true ∧
    Encoded.present .two (.home .elevation 3#2) = true ∧ Encoded.present .two (.drive .elevation 0x80000000#32) = true ∧
    requestWrites { code := 0x100#9, wdata := 5#32 } = true := by decide

/-- A code of every row, and two of the catch-alls' (`0x028`, `0x1FF`), which no other clause names. -/
theorem witness_RequestsDecodeByTheOperationMap :
    0x010#9 &&& 0x1EF#9 = 0x000#9 ∧ 0x110#9 &&& 0x1EF#9 = 0x100#9 ∧ 0x014#9 &&& 0x1EF#9 = 0x004#9 ∧ 0x114#9 &&& 0x1EF#9 = 0x104#9 ∧
    0x018#9 &&& 0x1EF#9 = 0x008#9 ∧ 0x118#9 &&& 0x1EF#9 = 0x108#9 ∧ 0x01C#9 &&& 0x1EF#9 = 0x00C#9 ∧ 0x11C#9 &&& 0x1EF#9 = 0x10C#9 ∧
    (∀ c ∈ [0x028#9, 0x1FF#9],
      (c &&& 0x1EF#9) ∉ [0x000#9, 0x100#9, 0x004#9, 0x104#9, 0x008#9, 0x108#9, 0x00C#9, 0x10C#9] ∧
      c ∉ [0x020#9, 0x120#9, 0x024#9, 0x124#9]) := by decide

theorem witness_StepRunsTheDecodedRequest : (plain bDual (rq 0x108#9 100#32)).input.rst = false := by decide

theorem witness_StepIsTheSimultaneousNext : (plain bDual (rq 0x108#9 100#32)).FitsBuild ∧ (plain bSingle none).FitsBuild :=
  ⟨st_fits _ _ _ _ _ _ _, st_fits _ _ _ _ _ _ _⟩

/-- A legal state at the upper end of the range, about to count past it. -/
theorem witness_StepKeepsLegality :
    (st bSingle 999999 false true false (lv true true true) [cyc false (rq 0x124#9 0#32)]).Inv ∧
    ∃ t, step (st bSingle 999999 false true false (lv true true true) [cyc false (rq 0x124#9 0#32)]) = .next t := by
  refine ⟨⟨st_fits _ _ _ _ _ _ _, ?_, ?_, ?_⟩, ⟨_, rfl⟩⟩
  · intro _ n a h
    cases n
    · injection h with h; subst h; decide
    · cases h
  · intro n a h _
    cases n
    · injection h with h; subst h; rfl
    · cases h
  · intro n a h
    cases n
    · injection h with h; subst h; exact ⟨100#32, by decide⟩
    · cases h

theorem witness_BuildIsConstant :
    (∃ t, exec (.wrCfg 0#32) (plain bDual none) = .next t) ∧ ∃ t, step (st bDual 5 true true false Config.quietLevels [cyc true none]) = .next t :=
  ⟨⟨_, rfl⟩, ⟨_, rfl⟩⟩

theorem witness_ResetStateOfEveryBuild :
    (State.resetOf bDual).axis? .elevation = some (AxisState.reset bDual) ∧ bDual.wiring = .twoDirection ∧
    (State.resetOf bSingle).axis? .azimuth = some (AxisState.reset bSingle) ∧ bSingle.wiring = .twoEnable := by decide

/-- Reset in a cycle that also reads, on both axes; and axis 1 absent. -/
theorem witness_ResetCycleWins :
    (st bDual 5 true true false (lv true true false) [cyc true (rq 0x010#9 0#32)]).input.rst = true ∧
    (st bDual 5 true true false (lv true true false) [cyc true (rq 0x010#9 0#32)]).axis? .elevation
      = some (axisOf bDual 5 true true false (lv true true false)) ∧
    (st bDual 5 true true false (lv true true false) [cyc true (rq 0x010#9 0#32)]).input.req = some { code := 0x010#9, wdata := 0#32 } ∧
    0x010#9 &&& 0x100#9 = 0#9 ∧
    (st bSingle 5 true true false (lv true true false) [cyc true none]).input.rst = true ∧
    (st bSingle 5 true true false (lv true true false) [cyc true none]).axis? .elevation = none := by decide

/-- Enabled by the mode, enabled by a poll, not enabled. -/
theorem witness_SampleEnableDecidesSampling :
    (plain bDual none).FitsBuild ∧ (plain bDual none).input.rst = false ∧
    (plain bDual none).axis? .elevation = some (axisOf bDual 5 false false true Config.quietLevels) ∧
    (plain bDual none).build.sampleMode = .continuous ∧
    (plain bSingle (rq 0x124#9 7#32)).FitsBuild ∧ (plain bSingle (rq 0x124#9 7#32)).input.rst = false ∧
    (plain bSingle (rq 0x124#9 7#32)).axis? .azimuth = some (axisOf bSingle 5 false false true Config.quietLevels) ∧
    (plain bSingle (rq 0x124#9 7#32)).build.sampleMode = .polled ∧
    (plain bSingle (rq 0x124#9 7#32)).input.req = some { code := 0x124#9, wdata := 7#32 } ∧
    (plain bSingle none).build.sampleMode = .polled ∧ (plain bSingle none).input.req = none :=
  ⟨st_fits _ _ _ _ _ _ _, rfl, rfl, rfl, st_fits _ _ _ _ _ _ _, rfl, rfl, rfl, rfl, rfl, rfl⟩

/-- Both wrap points of the count up. -/
theorem witness_QdIncCountsUp :
    (st bSingle 999999 false false true Config.quietLevels []).axis? .azimuth = some (axisOf bSingle 999999 false false true Config.quietLevels) ∧
    bSingle.wrapMode = .mod ∧ sint32 (axisOf bSingle 999999 false false true Config.quietLevels).pos = 999999 ∧
    (st bDual (2 ^ 31 - 1) false false true Config.quietLevels []).axis? .elevation
      = some (axisOf bDual (2 ^ 31 - 1) false false true Config.quietLevels) ∧
    bDual.wrapMode = .native ∧ sint32 (axisOf bDual (2 ^ 31 - 1) false false true Config.quietLevels).pos = 2 ^ 31 - 1 := by decide

/-- Zero, and both wrap points of the count down. -/
theorem witness_QdDecCountsDown :
    (st bSingle 0 false false true Config.quietLevels []).axis? .azimuth = some (axisOf bSingle 0 false false true Config.quietLevels) ∧
    sint32 (axisOf bSingle 0 false false true Config.quietLevels).pos = 0 ∧
    (st bSingle (-999999) false false true Config.quietLevels []).axis? .azimuth
      = some (axisOf bSingle (-999999) false false true Config.quietLevels) ∧
    bSingle.wrapMode = .mod ∧ sint32 (axisOf bSingle (-999999) false false true Config.quietLevels).pos = -999999 ∧
    (st bDual (-2 ^ 31) false false true Config.quietLevels []).axis? .elevation
      = some (axisOf bDual (-2 ^ 31) false false true Config.quietLevels) ∧
    bDual.wrapMode = .native ∧ sint32 (axisOf bDual (-2 ^ 31) false false true Config.quietLevels).pos = -2 ^ 31 := by decide

theorem witness_QdHoldOnlyTakesTheReference :
    (plain bDual none).axis? .elevation = some (axisOf bDual 5 false false true Config.quietLevels) := by decide

theorem witness_ModWrapIsTruncatedRemainder :
    ∃ v₁ v₂ v₃ v₄ v₅ : Int, (0 ≤ v₁ ∧ v₁ = 0) ∧ (v₂ ≤ 0 ∧ v₂ = -1000001) ∧ (-1000000 < v₃ ∧ v₃ < 1000000 ∧ v₃ = -999999) ∧
      (-1000000 < v₄ ∧ v₄ < 1000000 ∧ v₄ = 999999) ∧ (v₅ = 1000000 ∨ v₅ = -1000000) :=
  ⟨0, -1000001, -999999, 999999, 1000000, by decide⟩

theorem witness_WrPollSamplesEveryAxis :
    (plain bSingle none).build.sampleMode = .polled ∧ (plain bSingle none).axis? .elevation = none ∧
    (plain bSingle none).axis? .azimuth = some (axisOf bSingle 5 false false true Config.quietLevels) ∧
    (plain bDual none).build.sampleMode = .continuous ∧ (plain bDual none).FitsBuild :=
  ⟨rfl, rfl, rfl, rfl, st_fits _ _ _ _ _ _ _⟩

/-- A read of an axis, and a cycle without reset that serves it. -/
theorem witness_RdPosReturnsThePosition :
    (plain bDual (rq 0x010#9 0#32)).axis? .elevation = some (axisOf bDual 5 false false true Config.quietLevels) ∧
    (plain bDual (rq 0x010#9 0#32)).input.rst = false ∧ (plain bDual (rq 0x010#9 0#32)).request = .rdPos .elevation := by decide

theorem witness_RdStatReturnsTheFlag :
    (plain bDual (rq 0x014#9 0#32)).axis? .elevation = some (axisOf bDual 5 false false true Config.quietLevels) ∧
    (plain bDual (rq 0x014#9 0#32)).input.rst = false ∧ (plain bDual (rq 0x014#9 0#32)).request = .rdStat .elevation := by decide

theorem witness_RdDrvReturnsTheOutputs :
    (plain bDual (rq 0x01C#9 0#32)).axis? .elevation = some (axisOf bDual 5 false false true Config.quietLevels) ∧
    (plain bDual (rq 0x01C#9 0#32)).input.rst = false ∧ (plain bDual (rq 0x01C#9 0#32)).request = .rdDrv .elevation := by decide

/-- In range at the upper end, about to count past it. -/
theorem witness_ModPositionStaysInRange :
    let s := st bSingle 999999 false false true (lv true true true) [cyc false (rq 0x124#9 0#32)]
    s.FitsBuild ∧ s.PosInRange ∧ ∃ t, step s = .next t := by
  refine ⟨st_fits _ _ _ _ _ _ _, ?_, ⟨_, rfl⟩⟩
  intro _ n a h
  cases n
  · injection h with h; subst h; decide
  · cases h

theorem witness_HomeFallSetsTheFlag :
    (plain bDual none).axis? .azimuth = some (axisOf bDual 5 false false true Config.quietLevels) := by decide

theorem witness_HomeRiseClearsTheFlag :
    (st bDual 5 false true false Config.quietLevels []).axis? .elevation = some (axisOf bDual 5 false true false Config.quietLevels) := by
  decide

/-- A changed level, and one that is the same, in a `POLLED` build without a poll. -/
theorem witness_LatchSamplesEveryCycle :
    let s := st bSingle 5 false false true (lv false false false) [cyc false none]
    let a := axisOf bSingle 5 false false true (lv false false false)
    s.FitsBuild ∧ s.input.rst = false ∧ s.axis? .azimuth = some a ∧ (a.sample (s.raw .azimuth)).homeN ≠ a.hlvlPrev ∧
    (plain bSingle none).FitsBuild ∧ (plain bSingle none).input.rst = false ∧
    (plain bSingle none).axis? .azimuth = some (axisOf bSingle 5 false false true Config.quietLevels) ∧
    ((axisOf bSingle 5 false false true Config.quietLevels).sample ((plain bSingle none).raw .azimuth)).homeN = true :=
  ⟨st_fits _ _ _ _ _ _ _, rfl, rfl, by decide, st_fits _ _ _ _ _ _ _, rfl, rfl, rfl⟩

/-- Before any change (flag and reference 0), after one, and a reset cycle with the flag up. -/
theorem witness_HomeFlagIsTheNegatedLevelAfterAChange :
    let s := st bSingle 5 false false false (lv false false true) [cyc false none]
    let u := st bDual 5 false true false (lv false false false) [cyc false none]
    (s.FitsBuild ∧ s.input.rst = false ∧ s.axis? .azimuth = some s.azimuth ∧ s.azimuth.home = false ∧ s.azimuth.hlvlPrev = false) ∧
    (u.FitsBuild ∧ u.input.rst = false ∧ u.axis? .azimuth = some u.azimuth ∧ u.azimuth.home = !u.azimuth.hlvlPrev) ∧
    (let v := st bDual 5 false true false (lv false false false) [cyc true none]
     v.input.rst = true ∧ v.axis? .elevation = some (axisOf bDual 5 false true false (lv false false false))) :=
  ⟨⟨st_fits _ _ _ _ _ _ _, rfl, rfl, rfl, rfl⟩, ⟨st_fits _ _ _ _ _ _ _, rfl, rfl, rfl⟩, rfl, rfl⟩

theorem witness_SpeedIsClamped :
    ∃ s₁ s₂ s₃ s₄ : Int, (-255 ≤ s₁ ∧ s₁ ≤ 255 ∧ s₁ = -255) ∧ (-255 ≤ s₂ ∧ s₂ ≤ 255 ∧ s₂ = 255) ∧ (s₃ < -255 ∧ s₃ = -256) ∧ (255 < s₄ ∧ s₄ = 256) :=
  ⟨-255, 255, -256, 256, by decide⟩

theorem witness_DeadzoneGivesTheStopState : (-10 : Int) ≤ -10 ∧ (-10 : Int) ≤ 10 ∧ (-10 : Int) ≤ 10 ∧ (10 : Int) ≤ 10 := by decide

theorem witness_MotionGivesDirectionAndDuty :
    ((11 : Int) ≤ 11 ∧ (11 : Int) ≤ 255) ∧ ((11 : Int) ≤ 255 ∧ (255 : Int) ≤ 255) ∧ ((-255 : Int) ≤ -11 ∧ (-11 : Int) ≤ -11) ∧
    ((-255 : Int) ≤ -255 ∧ (-255 : Int) ≤ -11) ∧ (255 : Int) < 256 ∧ (-256 : Int) < -255 := by decide

/-- A built axis with a command of each class at the end of its range, and command words of each class. -/
theorem witness_DriverClassesAreTheTable :
    (plain bDual none).axis? .elevation = some (axisOf bDual 5 false false true Config.quietLevels) ∧
    ((-10 : Int) ≤ 10 ∧ (10 : Int) ≤ 10) ∧ ((11 : Int) ≤ 11 ∧ (11 : Int) ≤ 255) ∧ ((-255 : Int) ≤ -11 ∧ (-11 : Int) ≤ -11) ∧
    (-10 ≤ clampSpeed (sint32 0xFFFFFFF6#32) ∧ clampSpeed (sint32 0xFFFFFFF6#32) ≤ 10) ∧
    11 ≤ clampSpeed (sint32 0x7FFFFFFF#32) ∧ clampSpeed (sint32 0x80000000#32) ≤ -11 := by decide

theorem witness_WrSpeedDrivesTheOutputs :
    (plain bDual none).axis? .elevation = some (axisOf bDual 5 false false true Config.quietLevels) := by decide

theorem witness_PinsFollowTheWiring :
    (plain bSingle none).axis? .azimuth = some (axisOf bSingle 5 false false true Config.quietLevels) ∧ bSingle.wiring = .twoEnable ∧
    (plain bDual none).axis? .azimuth = some (axisOf bDual 5 false false true Config.quietLevels) ∧ bDual.wiring = .twoDirection ∧
    (plain bSingle (rq 0x108#9 100#32)).FitsBuild ∧
    (∀ n a, (plain bSingle (rq 0x108#9 100#32)).axis? n = some a → a.out.dir2 = false) ∧
    (∃ t, step (plain bSingle (rq 0x108#9 100#32)) = .next t) ∧
    (State.resetOf bSingle).axis? .azimuth = some (AxisState.reset bSingle) := by
  refine ⟨rfl, rfl, rfl, rfl, st_fits _ _ _ _ _ _ _, ?_, ⟨_, rfl⟩, rfl⟩
  intro n a h
  cases n
  · injection h with h; subst h; decide
  · cases h

/-- Two states that differ in everything but the wiring and the axes built. -/
theorem witness_DriverIsStateless :
    let s := plain bDual none
    let u := st (build .two .polled .mod .twoDirection) (-7) true true false (lv true true false) []
    s.build.wiring = u.build.wiring ∧ (s.axis? .elevation).isSome = (u.axis? .elevation).isSome ∧ s ≠ u := by decide

/-- A reset cycle, a cycle with the command, a cycle without it. -/
theorem witness_OutputsAreThoseOfTheLastCommand :
    (State.resetOf bDual).axis? .elevation = some (AxisState.reset bDual) ∧
    (plain bDual none).FitsBuild ∧ (plain bDual none).axis? .elevation = some (axisOf bDual 5 false false true Config.quietLevels) ∧
    (st bDual 5 false false true Config.quietLevels [cyc true none]).input.rst = true ∧
    (plain bDual (rq 0x118#9 100#32)).Serves (1#1 ++ axisAddr .elevation .speed) 100#32 ∧
    ((plain bDual none).input.rst = false ∧ ∀ w, ¬ (plain bDual none).Serves (1#1 ++ axisAddr .elevation .speed) w) ∧
    ((drive .twoDirection 0).dir1 = true ∧ (drive .twoDirection 0).dir2 = true) :=
  ⟨rfl, st_fits _ _ _ _ _ _ _, rfl, rfl, ⟨rfl, by decide⟩, ⟨rfl, fun _ h => by cases h.2⟩, by decide⟩

theorem witness_NoDoubleDrive :
    ((-10 : Int) ≤ -10 ∧ (-10 : Int) ≤ 10) ∧ ((-11 : Int) < -10 ∨ 10 < (-11 : Int)) ∧ ((11 : Int) < -10 ∨ 10 < (11 : Int)) ∧ 10 < (11 : Int) ∧
    ((drive .twoDirection 10).dir1 = true ∧ (drive .twoDirection 10).dir2 = true) := by decide

/-- Misaligned at the last address; aligned but not named, the lowest of them; axis 1's block of a one-axis build. -/
theorem witness_UnmappedRequestsReadZeroAndWriteNothing :
    (0xFF#8).toNat % 4 ≠ 0 ∧ 0x28#8 ∉ mappedAddrs .two ∧ 0x1C#8 ∉ mappedAddrs .one := by decide

/-- An idle cycle of a `POLLED` build on a rising edge, and one of a `CONTINUOUS` build. -/
theorem witness_IdleHasNoBusEffect :
    let s := st bSingle 5 false false true (lv true true true) [cyc false none]
    s.FitsBuild ∧ s.input.rst = false ∧ s.input.req = none ∧ s.build.sampleMode = .polled ∧
    s.axis? .azimuth = some (axisOf bSingle 5 false false true (lv true true true)) ∧
    (plain bDual none).FitsBuild ∧ (plain bDual none).input.rst = false ∧ (plain bDual none).input.req = none ∧
    (plain bDual none).build.sampleMode = .continuous ∧
    (plain bDual none).axis? .elevation = some (axisOf bDual 5 false false true Config.quietLevels) :=
  ⟨st_fits _ _ _ _ _ _ _, rfl, rfl, rfl, rfl, st_fits _ _ _ _ _ _ _, rfl, rfl, rfl, rfl⟩

theorem witness_ReadsFollowTheAddressMap :
    (plain bDual (rq 0x01C#9 7#32)).FitsBuild ∧ (plain bDual (rq 0x01C#9 7#32)).Serves (0#1 ++ 0x1C#8) 7#32 ∧
    (plain bDual (rq 0x0FF#9 7#32)).Serves (0#1 ++ 0xFF#8) 7#32 :=
  ⟨st_fits _ _ _ _ _ _ _, ⟨rfl, by decide⟩, ⟨rfl, by decide⟩⟩

/-- A write of DRV0; and a write of POLL in a `CONTINUOUS` build. -/
theorem witness_OnlySpeedAndPollWritesHaveEffects :
    (plain bDual none).FitsBuild ∧ 0x10C#9 ≠ 0x108#9 ∧ 0x10C#9 ≠ 0x118#9 ∧ 0x10C#9 ≠ 0x124#9 ∧ 0x124#9 ≠ 0x108#9 ∧ 0x124#9 ≠ 0x118#9 ∧
    (plain bDual none).build.sampleMode = .continuous :=
  ⟨st_fits _ _ _ _ _ _ _, by decide, by decide, by decide, by decide, by decide, rfl⟩

theorem witness_BytesAreLittleEndianLanes : (0x00#8).toNat % 4 = 0 ∧ (0xFC#8).toNat % 4 = 0 := by decide

/-- A byte outside the register each form writes: DRV1's for a speed command of axis 0, POS0's for a home row, CFG's for a poll. -/
theorem witness_RegisterSpaceFrame :
    (∃ t, exec (.wrSpeed .azimuth 0#32) (plain bDual none) = .next t) ∧ 0x1D#8 &&& 0xFC#8 ≠ axisAddr .azimuth .drv ∧
    (∃ t, exec (.homeFall .azimuth) (plain bDual none) = .next t) ∧ 0x03#8 &&& 0xFC#8 ≠ axisAddr .azimuth .stat ∧
    (∃ t, exec (.qdInc .azimuth) (plain bDual none) = .next t) ∧ 0x0D#8 &&& 0xFC#8 ≠ axisAddr .azimuth .pos ∧
    0x0D#8 &&& 0xFC#8 ≠ axisAddr .azimuth .stat ∧
    (∃ t, exec (.wrPoll 0#32) (plain bSingle none) = .next t) ∧
    (∀ n, 0x22#8 &&& 0xFC#8 ≠ axisAddr n .pos ∧ 0x22#8 &&& 0xFC#8 ≠ axisAddr n .stat) ∧
    ∃ t, exec .rdCfg (plain bDual none) = .next t :=
  ⟨⟨_, rfl⟩, by decide, ⟨_, rfl⟩, by decide, ⟨_, rfl⟩, by decide, by decide, ⟨_, rfl⟩, by intro n; cases n <;> decide, ⟨_, rfl⟩⟩

/-- A command on axis 1 before a read of its DRV. -/
theorem witness_SpeedWriteReadsBackInTheNextCycle :
    let s := st bDual 5 false false true Config.quietLevels [cyc false (rq 0x118#9 0x80000000#32), cyc false (rq 0x01C#9 0#32)]
    s.FitsBuild ∧ (s.axis? .elevation).isSome = true ∧ s.Serves (1#1 ++ axisAddr .elevation .speed) 0x80000000#32 ∧
    ∃ t, step s = .next t ∧ t.Serves (0#1 ++ axisAddr .elevation .drv) 0#32 :=
  ⟨st_fits _ _ _ _ _ _ _, rfl, ⟨rfl, by decide⟩, _, rfl, ⟨rfl, by decide⟩⟩

theorem witness_ReadDuringACountIsOneCycleStale :
    let s := st bDual 5 false false true (lv true true true) [cyc false (rq 0x010#9 0#32), cyc false (rq 0x010#9 0#32)]
    let a := axisOf bDual 5 false false true (lv true true true)
    s.FitsBuild ∧ s.axis? .elevation = some a ∧ s.build.sampleMode = .continuous ∧ a.aPrev = false ∧
    (a.sample (s.raw .elevation)).qa = true ∧ s.Serves (0#1 ++ axisAddr .elevation .pos) 0#32 ∧
    ∃ t, step s = .next t ∧ t.Serves (0#1 ++ axisAddr .elevation .pos) 0#32 :=
  ⟨st_fits _ _ _ _ _ _ _, rfl, rfl, rfl, rfl, ⟨rfl, by decide⟩, _, rfl, ⟨rfl, by decide⟩⟩

theorem witness_PollThenReadSeesThePoll :
    let s := st bSingle 5 false false true (lv true false true) [cyc false (rq 0x124#9 9#32), cyc false (rq 0x000#9 0#32)]
    let a := axisOf bSingle 5 false false true (lv true false true)
    s.FitsBuild ∧ s.axis? .azimuth = some a ∧ s.build.sampleMode = .polled ∧ a.aPrev = false ∧
    (a.sample (s.raw .azimuth)).qa = true ∧ s.Serves 0x124#9 9#32 ∧
    ∃ t, step s = .next t ∧ t.Serves (0#1 ++ axisAddr .azimuth .pos) 0#32 :=
  ⟨st_fits _ _ _ _ _ _ _, rfl, rfl, rfl, rfl, ⟨rfl, by decide⟩, _, rfl, ⟨rfl, by decide⟩⟩

/-- A cycle that reads, one that writes, one that is idle, and a reset cycle that reads. -/
theorem witness_ReadDataExactlyAfterARead :
    (plain bDual (rq 0x030#9 0#32)).FitsBuild ∧ (∃ t, step (plain bDual (rq 0x030#9 0#32)) = .next t) ∧ 0x030#9 &&& 0x100#9 = 0#9 ∧
    (∃ t, step (plain bDual (rq 0x108#9 0#32)) = .next t) ∧ 0x108#9 &&& 0x100#9 ≠ 0#9 ∧ (∃ t, step (plain bDual none) = .next t) ∧
    (st bDual 5 false false true Config.quietLevels [cyc true (rq 0x000#9 0#32)]).FitsBuild ∧
    ∃ t, step (st bDual 5 false false true Config.quietLevels [cyc true (rq 0x000#9 0#32)]) = .next t :=
  ⟨st_fits _ _ _ _ _ _ _, ⟨_, rfl⟩, by decide, ⟨_, rfl⟩, by decide, ⟨_, rfl⟩, st_fits _ _ _ _ _ _ _, ⟨_, rfl⟩⟩

theorem witness_AbsentAxisOperationsDoNothing : (plain bSingle none).axis? .elevation = none := rfl

/-- Two machines that agree on axis 0 and differ on axis 1 and its samples. -/
theorem witness_AxesAreIndependent :
    let s := plain bDual none
    let u := { plain bDual none with elevation := some (axisOf bDual 9 true true false (lv true true false)) }
    s.FitsBuild ∧ u.FitsBuild ∧ s.build = u.build ∧ s.axis? .azimuth = u.axis? .azimuth ∧ s.input.rst = u.input.rst ∧
    s.input.req = u.input.req ∧ s.raw .azimuth = u.raw .azimuth ∧ s.axis? .elevation ≠ u.axis? .elevation := by
  refine ⟨st_fits _ _ _ _ _ _ _, ⟨by decide, ?_⟩, rfl, rfl, rfl, rfl, rfl, by decide⟩
  intro n a h
  cases n <;> injection h with h <;> subst h <;> rfl

/-- Axes that agree on the tracker and differ on the latch and the home sample; and the other way round. -/
theorem witness_TrackerAndLatchShareNothing :
    let s := st bDual 5 false false true (lv true true true) [cyc false none]
    let u := st bDual 5 false true false (lv true true false) [cyc false none]
    let v := st bDual 6 true false true (lv false false true) [cyc false none]
    s.FitsBuild ∧ u.FitsBuild ∧ v.FitsBuild ∧ s.build = u.build ∧ s.build = v.build ∧
    s.axis? .azimuth = some s.azimuth ∧ u.axis? .azimuth = some u.azimuth ∧ v.axis? .azimuth = some v.azimuth ∧
    s.input.rst = u.input.rst ∧ s.input.req = u.input.req ∧ s.input.rst = v.input.rst ∧ s.input.req = v.input.req ∧
    (s.azimuth.pos = u.azimuth.pos ∧ s.azimuth.aPrev = u.azimuth.aPrev ∧
      (s.azimuth.sample (s.raw .azimuth)).qa = (u.azimuth.sample (u.raw .azimuth)).qa ∧
      (s.azimuth.sample (s.raw .azimuth)).qb = (u.azimuth.sample (u.raw .azimuth)).qb ∧ s.azimuth.home ≠ u.azimuth.home) ∧
    (s.azimuth.home = v.azimuth.home ∧ s.azimuth.hlvlPrev = v.azimuth.hlvlPrev ∧
      (s.azimuth.sample (s.raw .azimuth)).homeN = (v.azimuth.sample (v.raw .azimuth)).homeN ∧ s.azimuth.pos ≠ v.azimuth.pos) := by
  refine ⟨st_fits _ _ _ _ _ _ _, st_fits _ _ _ _ _ _ _, st_fits _ _ _ _ _ _ _, ?_⟩
  decide

/-- One stage; the state after it is in a cycle without reset. -/
theorem witness_SampleIsThePinLevelSyncStagesEarlier :
    let s := st bDual 5 false false true Config.quietLevels [cyc false none, cyc false none]
    s.FitsBuild ∧ s.axis? .elevation = some (axisOf bDual 5 false false true Config.quietLevels) ∧
    ∃ t, Host.Core.run Sys2Proof.core s.build.syncStages s = .next t ∧ t.input.rst = false :=
  ⟨st_fits _ _ _ _ _ _ _, rfl, _, rfl, rfl⟩

/-- The second cycle of two, an axis of the state they are loaded into, and a line of a program behind a reset and a `pins` line. -/
theorem witness_LoadedProgramsKeepTheirSamples :
    (plain bDual none).FitsBuild ∧ [cyc true none, cyc false (rq 0x004#9 0#32)][1]? = some (cyc false (rq 0x004#9 0#32)) ∧
    (((plain bDual none).load [cyc true none, cyc false (rq 0x004#9 0#32)]).axis? .elevation).isSome = true ∧
    lineCycles (.rd (.reg .azimuth .pos)) = 1 ∧ lineCycles (.wr .poll 0) = 1 ∧ lineCycles .idle = 1 ∧ lineCycles .reset = 1 ∧
    sampleAfter .azimuth [.reset, .pins .azimuth (some true) none none, .pins .elevation none (some true) (some false)]
      Config.quietLevels = lv true false true :=
  ⟨st_fits _ _ _ _ _ _ _, rfl, rfl, rfl, rfl, rfl, rfl, rfl⟩

end Sys2Proof.Tests
end

section
/-! PROOFS. What every operation and every cycle keeps (R4, R166, R200): an operation updates the axes and the read data, and a cycle then ends. -/

namespace Sys2Proof.Machine

/-! ### The shape of a result: the axes mapped, then an answer -/

/-- An update of one axis is an update of every axis that leaves the others alone. -/
theorem State.updateAxis_eq_mapAxes (n : Axis) (f : AxisState → AxisState) (s : State) :
    s.updateAxis n f = s.mapAxes (fun m a => if m = n then f a else a) := by
  cases n <;> simp [State.updateAxis, State.mapAxes]

@[simp] theorem State.mapAxes_id (s : State) : s.mapAxes (fun _ a => a) = s := by
  simp [State.mapAxes]

@[simp] theorem State.answer_rdata_self (s : State) : s.answer s.rdata = s := rfl

/-- An update after an update, and an answer after an answer, are one of each. -/
@[simp] theorem State.mapAxes_answer_mapAxes (s : State) (g h : Axis → AxisState → AxisState) (r r' : Option Word) :
    (((s.mapAxes g).answer r).mapAxes h).answer r' = (s.mapAxes (fun n a => h n (g n a))).answer r' := by
  simp [State.mapAxes, State.answer, Function.comp_def]

theorem State.mapAxes_congr {s : State} {g h : Axis → AxisState → AxisState}
    (heq : ∀ n a, s.axis? n = some a → g n a = h n a) : s.mapAxes g = s.mapAxes h := by
  have helev : s.elevation.map (g .elevation) = s.elevation.map (h .elevation) :=
    Option.map_congr (fun a ha => heq .elevation a ha)
  simp [State.mapAxes, heq .azimuth s.azimuth rfl, helev]

/-- Every operation completes, and it updates nothing but the axes, each in its place, and the read data. -/
theorem exec_eq_mapAxes_answer (i : Instr) (s : State) : ∃ g r, exec i s = .next ((s.mapAxes g).answer r) := by
  have answers (r : Option Word) : ∃ g r', Host.Outcome.next (s.answer r) =
      (.next ((s.mapAxes g).answer r') : Host.Outcome State Fault Refusal) :=
    ⟨fun _ a => a, r, by simp⟩
  have updates (n : Axis) (f : AxisState → AxisState) : ∃ g r, Host.Outcome.next (s.updateAxis n f) =
      (.next ((s.mapAxes g).answer r) : Host.Outcome State Fault Refusal) :=
    ⟨fun m a => if m = n then f a else a, s.rdata, by rw [State.updateAxis_eq_mapAxes]; rfl⟩
  cases i with
  | rdPos | wrPos | rdStat | wrStat | rdSpeed | rdDrv | wrDrv | rdCfg | wrCfg | rdPoll | rdUnmapped | wrUnmapped | idle =>
    exact answers _
  | qdNosample n | qdInc n | qdDec n | qdHoldLow n | qdHoldHigh n | homeFall n | homeRise n | homeHoldLow n
  | homeHoldHigh n | drvStop n | drvFwd n | drvRev n => exact updates n _
  | wrSpeed n w =>
    have h := State.updateAxis_eq_mapAxes n (fun a => { a with out := drive s.build.wiring (sint32 w) }) s
    exact ⟨_, none, congrArg (fun t : State => Host.Outcome.next (t.answer none)) h⟩
  | wrPoll w =>
    simp only [exec, execWrPoll]
    split
    · exact ⟨_, none, rfl⟩
    · exact answers none

/-- So do operations one after the other. -/
theorem runActions_eq_mapAxes_answer (is : List Instr) (s : State) :
    ∃ g r, runActions is s = .next ((s.mapAxes g).answer r) := by
  induction is generalizing s with
  | nil => exact ⟨fun _ a => a, s.rdata, by simp [runActions]⟩
  | cons i is ih =>
    obtain ⟨g, r, hi⟩ := exec_eq_mapAxes_answer i s
    obtain ⟨g', r', his⟩ := ih ((s.mapAxes g).answer r)
    exact ⟨fun n a => g' n (g n a), r', by simp [runActions, hi, his]⟩

/-- So does a cycle, with or without reset, before it ends. -/
theorem step_eq_mapAxes_answer_advance (s : State) : ∃ g r, step s = .next ((s.mapAxes g).answer r).advance := by
  cases hr : s.input.rst with
  | true => exact ⟨_, _, step_of_rst hr⟩
  | false =>
    obtain ⟨g, r, h⟩ := runActions_eq_mapAxes_answer s.cycleActions s
    exact ⟨g, r, by rw [step_of_not_rst hr, h, andThen_next]⟩

/-- Settles O10: an operation and a cycle only map the axes, whose set and whose build stay. -/
theorem buildIsConstant : Obligations.BuildIsConstant := by
  unfold Obligations.BuildIsConstant
  constructor
  · intro i s t ht
    obtain ⟨g, r, h⟩ := exec_eq_mapAxes_answer i s
    cases h.symm.trans ht
    simp
  · intro s t ht
    obtain ⟨g, r, h⟩ := step_eq_mapAxes_answer_advance s
    cases h.symm.trans ht
    simp

/-! ### The order of a cycle's operations -/

theorem andThen_assoc (o : Host.Outcome State Fault Refusal) (f g : State → Host.Outcome State Fault Refusal) :
    andThen (andThen o f) g = andThen o (fun s => andThen (f s) g) := by
  cases o <;> rfl

/-- Settles O5: the request is the first of the cycle's operations (log 7). -/
theorem stepRunsTheDecodedRequest : Obligations.StepRunsTheDecodedRequest := by
  unfold Obligations.StepRunsTheDecodedRequest
  intro s hrst
  calc step s = andThen (runActions s.cycleActions s) (fun u => .next u.advance) := step_of_not_rst hrst
    _ = andThen (andThen (exec s.request s) (runActions (s.trackerActions ++ s.latchActions)))
          (fun u => .next u.advance) := rfl
    _ = _ := andThen_assoc _ _ _

/-! ### The wrap in `MOD` mode -/

/-- Settles O18: the quotient is the one rounded toward zero, whose magnitude is the quotient of the magnitudes (R8). -/
theorem modWrapIsTruncatedRemainder : Obligations.ModWrapIsTruncatedRemainder := by
  unfold Obligations.ModWrapIsTruncatedRemainder
  intro v
  have hrange := trem_wrapMod_range v
  have hdiv : Int.tdiv v 1000000 * 1000000 + wrapPos .mod v = v := by
    simpa [wrapPos, trem, mul_comm] using Int.mul_tdiv_add_tmod v 1000000
  have hq : (Int.tdiv v 1000000).natAbs = v.natAbs / 1000000 := Int.natAbs_tdiv v 1000000
  have hpos : 0 ≤ v → 0 ≤ wrapPos .mod v := Int.tmod_nonneg 1000000
  have hneg : v ≤ 0 → 0 ≤ -wrapPos .mod v := fun h =>
    (Int.tmod_nonneg 1000000 (Int.neg_nonneg_of_nonpos h)).trans_eq (Int.neg_tmod (a := v) (b := 1000000))
  change -1000000 < wrapPos .mod v ∧ wrapPos .mod v < 1000000 at hrange
  generalize wrapPos .mod v = r at *
  generalize Int.tdiv v 1000000 = q at *
  refine ⟨⟨q, hdiv.symm, ?_, ?_⟩, ?_, ?_, ?_, ?_⟩ <;> omega

end Sys2Proof.Machine
end

section
/-! PROOFS. What a cycle's request does to a state that fits its build, said once: the decoding against the address map (R51, R71, R72), the read data, the phase sample of a WR_POLL, the speed command. -/

namespace Sys2Proof.Machine

/-! ### The request of a cycle -/

/-- A request is a read or a write of an address (R70). -/
theorem request_eq_read_or_write (r : Request) :
    r = { code := 0#1 ++ requestAddr r, wdata := r.wdata } ∨ r = { code := 1#1 ++ requestAddr r, wdata := r.wdata } := by
  have h := request_code_eq r
  cases hw : requestWrites r with
  | false => exact .inl (by rw [hw] at h; cases r; exact congrArg (Request.mk · _) h)
  | true => exact .inr (by rw [hw] at h; cases r; exact congrArg (Request.mk · _) h)

/-- `WE` is bit 8 of the code (R70). -/
theorem requestWrites_eq_false_iff (r : Request) : requestWrites r = false ↔ r.code &&& 0x100#9 = 0#9 := by
  have h : r.code &&& 0x100#9 = _ := BitVec.and_twoPow r.code 8
  rw [h, requestWrites]
  cases r.code.getLsbD 8 <;> decide

theorem addr_of_decodeAddr_reg {k : NAxes} {addr : Byte} {n : Axis} {r : AxisReg} (h : decodeAddr k addr = .reg n r) :
    addr = axisAddr n r := by
  revert addr
  cases k <;> cases n <;> cases r <;> decide

/-- Of the addresses, those of a built axis's registers alone select them (R71). -/
theorem decodeAddr_eq_reg_iff {k : NAxes} {n : Axis} (hn : k.has n = true) (addr : Byte) (r : AxisReg) :
    decodeAddr k addr = .reg n r ↔ addr = axisAddr n r :=
  ⟨addr_of_decodeAddr_reg, fun h => h ▸ decodeAddr_axisAddr hn r⟩

theorem decodeAddr_eq_cfg_iff (k : NAxes) (addr : Byte) : decodeAddr k addr = .cfg ↔ addr = 0x20#8 := by
  revert addr
  cases k <;> decide

theorem decodeAddr_eq_poll_iff (k : NAxes) (addr : Byte) : decodeAddr k addr = .poll ↔ addr = 0x24#8 := by
  revert addr
  cases k <;> decide

theorem speedCommand_read (addr : Byte) (w : Word) (n : Axis) :
    speedCommand (some { code := 0#1 ++ addr, wdata := w }) n = none := by
  have h : (0#1 ++ addr : BitVec 9) ≠ 0x108#9 ∧ (0#1 ++ addr : BitVec 9) ≠ 0x118#9 := by revert addr; decide
  cases n <;> simp [speedCommand, h]

theorem speedCommand_write (addr : Byte) (w : Word) (n : Axis) :
    speedCommand (some { code := 1#1 ++ addr, wdata := w }) n = if addr = axisAddr n .speed then some w else none := by
  have h : ((1#1 ++ addr : BitVec 9) = 0x108#9 ↔ addr = 0x08#8) ∧ ((1#1 ++ addr : BitVec 9) = 0x118#9 ↔ addr = 0x18#8) := by
    revert addr; decide
  cases n with
  | azimuth => exact if_congr h.1 rfl rfl
  | elevation => exact if_congr h.2 rfl rfl

theorem pollRequested_read (addr : Byte) (w : Word) :
    pollRequested (some { code := 0#1 ++ addr, wdata := w }) = false := by
  have h : (0#1 ++ addr : BitVec 9) ≠ 0x124#9 := by revert addr; decide
  simp [pollRequested, h]

theorem pollRequested_write (addr : Byte) (w : Word) :
    pollRequested (some { code := 1#1 ++ addr, wdata := w }) = decide (addr = 0x24#8) := by
  have h : (1#1 ++ addr : BitVec 9) = 0x124#9 ↔ addr = 0x24#8 := by revert addr; decide
  simp [pollRequested, h]

theorem isPoll_readInstr (addr : Byte) (T : Target) : isPoll (readInstr addr T) = false := by
  rcases T with ⟨n, r⟩ | _ | _ | _
  · cases r <;> rfl
  all_goals rfl

theorem isPoll_writeInstr (addr : Byte) (w : Word) (T : Target) :
    isPoll (writeInstr addr w T) = decide (T = .poll) := by
  rcases T with ⟨n, r⟩ | _ | _ | _
  · cases r <;> rfl
  all_goals rfl

/-- The request decodes to a WR_POLL exactly where its code is WR_POLL's (R72). -/
theorem isPoll_decode_bus (k : NAxes) (req : Option Request) : isPoll (decode k (.bus req)) = pollRequested req := by
  rcases req with _ | r
  · rfl
  · rcases request_eq_read_or_write r with h | h <;> rw [h]
    · rw [decode_read, isPoll_readInstr, pollRequested_read]
    · rw [decode_write, isPoll_writeInstr, pollRequested_write, decide_eq_decide]
      exact decodeAddr_eq_poll_iff k _

/-! ### States that fit their build -/

theorem State.FitsBuild.has_of_axis? {s : State} (hs : s.FitsBuild) {n : Axis} {a : AxisState} (ha : s.axis? n = some a) :
    s.build.nAxes.has n = true := by
  obtain ⟨helev, -⟩ := hs
  cases n with
  | azimuth => cases s.build.nAxes <;> rfl
  | elevation =>
    have : s.build.nAxes = .two := helev.mp (Option.isSome_of_eq_some ha)
    rw [this]; rfl

theorem State.FitsBuild.elevation_eq_none {s : State} (hs : s.FitsBuild) (h : s.build.nAxes = .one) :
    s.elevation = none := by
  obtain ⟨helev, -⟩ := hs
  cases he : s.elevation with
  | none => rfl
  | some a => cases h.symm.trans (helev.mp (by simp [he]))

/-! ### What a request does -/

/-- An address that the map does not name reads 0 (R54). -/
theorem State.readWord_eq_zero {s : State} (hs : s.FitsBuild) {addr : Byte} (h : addr ∉ mappedAddrs s.build.nAxes) :
    s.readWord addr = 0#32 := by
  have hne (a : Byte) (ha : a ∈ mappedAddrs s.build.nAxes) : addr.toNat ≠ a.toNat :=
    fun e => h (BitVec.eq_of_toNat_eq e ▸ ha)
  cases hk : s.build.nAxes with
  | one =>
    have helev := hs.elevation_eq_none hk
    simp only [hk, mappedAddrs, List.forall_mem_cons] at hne
    unfold State.readWord
    split <;> simp_all [State.axisWord, State.axis?]
  | two =>
    simp only [hk, mappedAddrs, List.forall_mem_cons] at hne
    unfold State.readWord
    split <;> simp_all

/-- An axis after the phase sample of a WR_POLL, where `poll` says that the cycle has one (R107). -/
def AxisState.pollSample (poll : Bool) (w : WrapMode) (q : AxisLevels) (a : AxisState) : AxisState :=
  if poll then a.applyQd w (a.qdAction true q) else a

/-- An axis after its speed command, where there is one (R158). -/
def AxisState.takeCommand (w : Wiring) (cmd : Option Word) (a : AxisState) : AxisState :=
  match cmd with
  | some c => { a with out := drive w (sint32 c) }
  | none => a

/-- A read answers with the word of its address, and nothing else changes (R51, R54). -/
theorem exec_readInstr {s : State} (hs : s.FitsBuild) (addr : Byte) :
    exec (readInstr addr (decodeAddr s.build.nAxes addr)) s = .next (s.answer (some (s.readWord addr))) := by
  cases hT : decodeAddr s.build.nAxes addr with
  | reg n r =>
    rw [addr_of_decodeAddr_reg hT]
    cases n <;> cases r <;> rfl
  | cfg => rw [(decodeAddr_eq_cfg_iff _ _).mp hT]; rfl
  | poll => rw [(decodeAddr_eq_poll_iff _ _).mp hT]; rfl
  | unmapped => rw [State.readWord_eq_zero hs ((decodeAddr_unmapped _ _).mp hT)]; rfl

/-- Of the writes, that of SPEED gives its axis a command and that of POLL samples every axis in a `POLLED` build (R57). -/
theorem exec_writeInstr (s : State) (addr : Byte) (w : Word) (T : Target) :
    exec (writeInstr addr w T) s = .next ((s.mapAxes fun n a =>
      (a.pollSample (s.build.sampleMode = .polled && decide (T = .poll)) s.build.wrapMode (a.sample (s.raw n))).takeCommand
        s.build.wiring (if T = .reg n .speed then some w else none)).answer none) := by
  cases T with
  | reg m r =>
    cases r with
    | speed =>
      simp only [writeInstr, exec, execWrSpeed, State.driveAxis, State.updateAxis_eq_mapAxes]
      congr 3
      funext n a
      by_cases h : n = m <;> simp [h, eq_comm (a := m), AxisState.takeCommand, AxisState.pollSample]
    | pos | stat | drv =>
      simp [writeInstr, exec, execWrPos, execWrStat, execWrDrv, AxisState.takeCommand, AxisState.pollSample]
  | poll =>
    cases hm : s.build.sampleMode <;>
      simp [writeInstr, exec, execWrPoll, hm, AxisState.takeCommand, AxisState.pollSample, State.samplePhases]
  | cfg | unmapped =>
    simp [writeInstr, exec, execWrCfg, execWrUnmapped, AxisState.takeCommand, AxisState.pollSample]

/-- The request of a cycle: the read data from the state before the cycle, the sample of a WR_POLL, the speed command. -/
theorem exec_request {s : State} (hs : s.FitsBuild) :
    exec s.request s = .next ((s.mapAxes fun n a =>
      (a.pollSample s.pollSamples s.build.wrapMode (a.sample (s.raw n))).takeCommand
        s.build.wiring (speedCommand s.input.req n)).answer s.readData) := by
  have hpoll : s.pollSamples = (decide (s.build.sampleMode = .polled) && pollRequested s.input.req) := by
    rw [State.pollSamples, State.request, isPoll_decode_bus]
  rw [hpoll, State.request, State.readData]
  rcases s.input.req with _ | r
  · simp [decode, decodeRequest, exec, execIdle, pollRequested, speedCommand, AxisState.pollSample, AxisState.takeCommand]
  · rcases request_eq_read_or_write r with h | h <;> rw [h]
    · rw [decode_read, exec_readInstr hs, pollRequested_read]
      simp [requestWrites_read, requestAddr_read, speedCommand_read, AxisState.pollSample, AxisState.takeCommand]
    · rw [decode_write, exec_writeInstr, pollRequested_write]
      simp only [requestWrites_write, if_true, decodeAddr_eq_poll_iff]
      congr 2
      refine State.mapAxes_congr fun n a ha => ?_
      rw [speedCommand_write]
      simp only [decodeAddr_eq_reg_iff (hs.has_of_axis? ha)]

end Sys2Proof.Machine
end

section
/-! PROOFS. The cycle: what its operations, run one after the other, do to each axis, and that this is the simultaneous `Next` of R11 and R202. The statements about a whole cycle follow from the latter. -/

namespace Sys2Proof.Machine

/-! ### The rows of a cycle -/

/-- Operations that each update their axis, run one per axis, update every axis. -/
theorem runActions_axisList {s : State} {I : Axis → AxisState → Instr} {F : Axis → AxisState → AxisState → AxisState}
    (h : ∀ n a t, t.build = s.build → exec (I n a) t = .next (t.updateAxis n (F n a)))
    (g : Axis → AxisState → AxisState) (r : Option Word) :
    runActions (s.axisList.map fun p => I p.1 p.2) ((s.mapAxes g).answer r) =
      .next ((s.mapAxes fun n a => F n a (g n a)).answer r) := by
  cases he : s.elevation <;>
    simp [State.axisList, runActions, h, he, State.updateAxis, State.mapAxes, State.answer]

/-- A quadrature row wraps as the build before the cycle says. -/
theorem exec_qdInstr_of_build {s t : State} (h : t.build = s.build) (n : Axis) (act : QdAction) :
    exec (qdInstr n act) t = .next (t.updateAxis n (AxisState.applyQd s.build.wrapMode act)) :=
  h ▸ exec_qdInstr n act t

/-- The quadrature rows, decoded from the state before the cycle, on axes that the request has updated. -/
theorem runActions_trackerActions (s : State) (g : Axis → AxisState → AxisState) (r : Option Word) :
    runActions s.trackerActions ((s.mapAxes g).answer r) = .next ((s.mapAxes fun n a =>
      if s.pollSamples then g n a
      else (g n a).applyQd s.build.wrapMode (a.qdAction s.sampleEnabled (a.sample (s.raw n)))).answer r) := by
  unfold State.trackerActions
  cases s.pollSamples with
  | true => rfl
  | false =>
    exact runActions_axisList
      (fun n a _ ht => exec_qdInstr_of_build ht n (a.qdAction s.sampleEnabled (a.sample (s.raw n)))) g r

/-- The home rows, decoded from the state before the cycle, on axes that the operations before have updated. -/
theorem runActions_latchActions (s : State) (g : Axis → AxisState → AxisState) (r : Option Word) :
    runActions s.latchActions ((s.mapAxes g).answer r) =
      .next ((s.mapAxes fun n a => (g n a).applyHome (a.homeAction (a.sample (s.raw n)))).answer r) :=
  runActions_axisList (fun n a t _ => exec_homeInstr n (a.homeAction (a.sample (s.raw n))) t) g r

/-- An axis after everything a cycle without reset runs on it: its speed command, one quadrature row, one home row. -/
def AxisState.afterActions (b : Build) (en : Bool) (q : AxisLevels) (cmd : Option Word) (a : AxisState) : AxisState :=
  ((a.applyQd b.wrapMode (a.qdAction en q)).takeCommand b.wiring cmd).applyHome (a.homeAction q)

theorem AxisState.applyQd_takeCommand (a : AxisState) (m : WrapMode) (act : QdAction) (w : Wiring) (cmd : Option Word) :
    (a.takeCommand w cmd).applyQd m act = (a.applyQd m act).takeCommand w cmd := by
  cases cmd <;> cases act <;> rfl

/-- What a cycle without reset runs, axis by axis. A WR_POLL that samples stands for the quadrature rows (R107, log 8). -/
theorem runActions_cycleActions {s : State} (hs : s.FitsBuild) :
    runActions s.cycleActions s = .next ((s.mapAxes fun n a =>
      a.afterActions s.build s.sampleEnabled (a.sample (s.raw n)) (speedCommand s.input.req n)).answer s.readData) := by
  rw [State.cycleActions, runActions, exec_request hs, andThen_next, runActions_append, runActions_trackerActions,
    andThen_next, runActions_latchActions]
  congr 3
  funext n a
  unfold AxisState.afterActions AxisState.pollSample
  cases hp : s.pollSamples with
  | true =>
    have hen : s.sampleEnabled = true := by
      unfold State.pollSamples at hp
      unfold State.sampleEnabled sampleEnable
      split <;> simp_all
    simp [hen]
  | false => simp [AxisState.applyQd_takeCommand]

/-! ### The cycle is the simultaneous `Next` -/

section
variable (a : AxisState) (w : Wiring) (cmd : Option Word)

@[simp] theorem AxisState.takeCommand_pos : (a.takeCommand w cmd).pos = a.pos := by cases cmd <;> rfl
@[simp] theorem AxisState.takeCommand_aPrev : (a.takeCommand w cmd).aPrev = a.aPrev := by cases cmd <;> rfl
@[simp] theorem AxisState.takeCommand_home : (a.takeCommand w cmd).home = a.home := by cases cmd <;> rfl
@[simp] theorem AxisState.takeCommand_hlvlPrev : (a.takeCommand w cmd).hlvlPrev = a.hlvlPrev := by cases cmd <;> rfl
@[simp] theorem AxisState.takeCommand_sync : (a.takeCommand w cmd).sync = a.sync := by cases cmd <;> rfl

end

/-- The home row depends on the reference level alone. -/
theorem AxisState.homeAction_congr {a b : AxisState} (h : a.hlvlPrev = b.hlvlPrev) (q : AxisLevels) :
    a.homeAction q = b.homeAction q := by
  rw [AxisState.homeAction, AxisState.homeAction, h]

/-- One after the other, the cycle's operations and the shift give an axis its simultaneous next value. -/
theorem AxisState.shift_afterActions (b : Build) (en : Bool) (raw : AxisLevels) (cmd : Option Word) (a : AxisState) :
    (a.afterActions b en (a.sample raw) cmd).shift raw = a.nextOf b en raw cmd := by
  unfold AxisState.afterActions
  have hhlvl : ((a.applyQd b.wrapMode (a.qdAction en (a.sample raw))).takeCommand b.wiring cmd).hlvlPrev = a.hlvlPrev := by
    simp
  rw [← AxisState.homeAction_congr hhlvl]
  unfold AxisState.shift AxisState.nextOf
  congr 1
  · simp [AxisState.qdAction_pos]
  · simp [AxisState.qdAction_aPrev]
  · simp [AxisState.homeAction_home]
  · exact AxisState.homeAction_hlvlPrev _ _
  · rw [AxisState.applyHome_out]
    cases cmd with
    | none => exact AxisState.applyQd_out a b.wrapMode _
    | some c => rfl
  · simp

theorem State.sampleEnabled_eq (s : State) :
    s.sampleEnabled = (decide (s.build.sampleMode = .continuous) || pollRequested s.input.req) := by
  rw [State.sampleEnabled, State.request, isPoll_decode_bus]
  cases s.build.sampleMode <;> simp [sampleEnable]

/-- The end of a cycle whose operations have updated the axes. -/
theorem State.advance_answer_mapAxes (s : State) (g : Axis → AxisState → AxisState) (r : Option Word) :
    ((s.mapAxes g).answer r).advance =
      { s.mapAxes (fun n a => (g n a).shift (s.raw n)) with
        rdata := r, pending := s.pending.tail, cycle := s.cycle + 1 } := by
  rcases s with ⟨build, azimuth, _ | elevation, rdata, pending, cycle⟩ <;> rfl

theorem resetAnswer_eq (s : State) : resetAnswer s.input.req = s.readData.map (fun _ => 0#32) := by
  unfold resetAnswer State.readData
  cases s.input.req with
  | none => rfl
  | some r => cases hw : requestWrites r <;> simp [hw]

/-- A step is the simultaneous `Next` with `Read` (R11, R202), reset first (R220). -/
theorem step_eq_nextOf {s : State} (hs : s.FitsBuild) : step s = .next s.nextOf := by
  cases hrst : s.input.rst with
  | true =>
    rw [step_of_rst hrst, State.resetCycle, State.advance_answer_mapAxes, resetAnswer_eq, State.nextOf, if_pos hrst]
    rfl
  | false =>
    rw [step_of_not_rst hrst, runActions_cycleActions hs, andThen_next, State.advance_answer_mapAxes, State.nextOf,
      if_neg (by simp [hrst])]
    simp only [AxisState.shift_afterActions, State.sampleEnabled_eq]

/-- Settles O6: the operations of a cycle, run one after the other, are the simultaneous update (logs 2, 3, 4). -/
theorem stepIsTheSimultaneousNext : Obligations.StepIsTheSimultaneousNext := by
  unfold Obligations.StepIsTheSimultaneousNext
  exact fun s hs => step_eq_nextOf hs

/-! ### Read data, and the two units of an axis -/

theorem State.nextOf_rdata_isSome (s : State) : s.nextOf.rdata.isSome = s.readData.isSome := by
  unfold State.nextOf
  split <;> simp

theorem State.readData_isSome_iff (s : State) :
    s.readData.isSome = true ↔ ∃ r, s.input.req = some r ∧ r.code &&& 0x100#9 = 0#9 := by
  simp only [← requestWrites_eq_false_iff]
  unfold State.readData
  cases s.input.req with
  | none => simp
  | some r => cases hr : requestWrites r <;> simp [hr]

/-- Settles O53: a cycle has read data where its request is a read, with reset (R220) and without (log 3). -/
theorem readDataExactlyAfterARead : Obligations.ReadDataExactlyAfterARead := by
  unfold Obligations.ReadDataExactlyAfterARead
  intro s t hs ht
  cases (step_eq_nextOf hs).symm.trans ht
  rw [State.nextOf_rdata_isSome, State.readData_isSome_iff]

/-- An axis after a reset cycle (R221). -/
theorem State.nextOf_axis?_of_rst {s : State} (h : s.input.rst = true) (n : Axis) :
    s.nextOf.axis? n = (s.axis? n).map fun a =>
      { AxisState.reset s.build with sync := (s.raw n :: a.sync).dropLast } := by
  rw [State.nextOf, if_pos h]
  cases n <;> rfl

/-- An axis after a cycle without reset. -/
theorem State.nextOf_axis?_of_not_rst {s : State} (h : s.input.rst = false) (n : Axis) :
    s.nextOf.axis? n = (s.axis? n).map (AxisState.nextOf s.build
      (s.build.sampleMode = .continuous || pollRequested s.input.req) (s.raw n) (speedCommand s.input.req n)) := by
  rw [State.nextOf, if_neg (by simp [h])]
  cases n <;> rfl

/-- Settles O56: the next position reads the phases and the tracker's elements alone, the next flag the home input and the
latch's alone; a reset cycle reads neither. -/
theorem trackerAndLatchShareNothing : Obligations.TrackerAndLatchShareNothing := by
  unfold Obligations.TrackerAndLatchShareNothing
  intro s u n a b hs hu hbuild ha hb hrst hreq
  cases hr : s.input.rst with
  | true =>
    have hs' := State.nextOf_axis?_of_rst hr n
    have hu' := State.nextOf_axis?_of_rst (hrst ▸ hr) n
    rw [ha, Option.map_some] at hs'
    rw [hb, Option.map_some] at hu'
    exact ⟨_, _, _, _, step_eq_nextOf hs, step_eq_nextOf hu, hs', hu', fun _ _ _ _ => ⟨rfl, rfl⟩, fun _ _ _ => ⟨rfl, rfl⟩⟩
  | false =>
    have hs' := State.nextOf_axis?_of_not_rst hr n
    have hu' := State.nextOf_axis?_of_not_rst (hrst ▸ hr) n
    rw [ha, Option.map_some] at hs'
    rw [hb, Option.map_some, ← hbuild, ← hreq] at hu'
    refine ⟨_, _, _, _, step_eq_nextOf hs, step_eq_nextOf hu, hs', hu', ?_, ?_⟩
    · intro hpos haPrev hqa hqb
      simp [AxisState.nextOf, hpos, haPrev, hqa, hqb]
    · intro hhome hhlvl hhomeN
      simp [AxisState.nextOf, hhome, hhlvl, hhomeN]

end Sys2Proof.Machine
end

section
/-! PROOFS. What every cycle keeps of the state (R20, R36, R37, R38, R39), axis by axis from the simultaneous `Next`: its axes and stages, the position range, the home flag, the outputs; and the way of a pin level through the synchronisers (R227). -/

namespace Sys2Proof.Machine

/-! ### The state after a cycle, axis by axis -/

@[simp] theorem State.nextOf_build (s : State) : s.nextOf.build = s.build := by
  unfold State.nextOf
  split <;> rfl

@[simp] theorem State.nextOf_elevation_isSome (s : State) : s.nextOf.elevation.isSome = s.elevation.isSome := by
  unfold State.nextOf
  split <;> simp

/-- A property of every axis is kept by a cycle if the reset of an axis and its next value both keep it. -/
theorem State.nextOf_forall_axis {s : State} {P : AxisState → Prop}
    (hreset : ∀ a raw, P a → P { AxisState.reset s.build with sync := (raw :: a.sync).dropLast })
    (hnext : ∀ a en raw cmd, P a → P (a.nextOf s.build en raw cmd))
    (h : ∀ n a, s.axis? n = some a → P a) (n : Axis) (b : AxisState) (hb : s.nextOf.axis? n = some b) : P b := by
  cases hrst : s.input.rst with
  | true =>
    rw [State.nextOf_axis?_of_rst hrst] at hb
    obtain ⟨a, ha, rfl⟩ := Option.map_eq_some_iff.mp hb
    exact hreset _ _ (h n a ha)
  | false =>
    rw [State.nextOf_axis?_of_not_rst hrst] at hb
    obtain ⟨a, ha, rfl⟩ := Option.map_eq_some_iff.mp hb
    exact hnext _ _ _ _ (h n a ha)

/-- Every built axis is in the state it is reset to (R221). -/
theorem State.eq_reset_of_resetOf_axis? {b : Build} {n : Axis} {a : AxisState}
    (h : (State.resetOf b).axis? n = some a) : a = AxisState.reset b := by
  cases n with
  | azimuth => exact (Option.some.inj h).symm
  | elevation =>
    simp only [State.axis?, State.resetOf] at h
    split at h
    · cases h
    · exact (Option.some.inj h).symm

/-! ### The four parts of a legal state -/

theorem State.FitsBuild.sync_length {s : State} (hs : s.FitsBuild) {n : Axis} {a : AxisState}
    (ha : s.axis? n = some a) : a.sync.length = s.build.syncStages := by
  obtain ⟨-, hsync⟩ := hs
  exact hsync n a ha

theorem State.FitsBuild.nextOf {s : State} (hs : s.FitsBuild) : s.nextOf.FitsBuild := by
  obtain ⟨helev, hsync⟩ := hs
  constructor
  · simpa using helev
  · rw [State.nextOf_build]
    exact State.nextOf_forall_axis (P := fun a => a.sync.length = s.build.syncStages)
      (fun a raw h => by simpa using h) (fun a en raw cmd h => by simpa [AxisState.nextOf] using h) hsync

/-- A counted position in `MOD` mode lies in the range of R37, whatever it was before. -/
theorem countPos_mod_range (pos : Position) (d : Int) :
    -Config.wrapMod < sint32 (countPos .mod pos d) ∧ sint32 (countPos .mod pos d) < Config.wrapMod := by
  have hrange : -1000000 < wrapPos .mod (sint32 pos + d) ∧ wrapPos .mod (sint32 pos + d) < 1000000 :=
    trem_wrapMod_range _
  rw [countPos, sint32_word32_of_range (by omega) (by omega)]
  exact hrange

/-- The reset position lies in the range of R37. -/
theorem sint32_zero_mod_range : -Config.wrapMod < sint32 0#32 ∧ sint32 0#32 < Config.wrapMod := by decide

theorem State.PosInRange.nextOf {s : State} (h : s.PosInRange) : s.nextOf.PosInRange := by
  intro hmod
  rw [State.nextOf_build] at hmod
  refine State.nextOf_forall_axis (P := fun a => -Config.wrapMod < sint32 a.pos ∧ sint32 a.pos < Config.wrapMod)
    (fun _ _ _ => sint32_zero_mod_range) (fun a en raw cmd ha => ?_) (h hmod)
  simp only [AxisState.nextOf, hmod]
  split
  · exact countPos_mod_range _ _
  · exact ha

theorem State.HomeConsistent.nextOf {s : State} (h : s.HomeConsistent) : s.nextOf.HomeConsistent := by
  refine State.nextOf_forall_axis (P := fun a => a.home = true → a.hlvlPrev = false)
    (fun a raw _ => by simp [AxisState.reset]) (fun a en raw cmd ha => ?_) h
  by_cases hlevel : a.hlvlPrev = (a.sample raw).homeN
  · simpa [AxisState.nextOf, hlevel] using ha
  · simp [AxisState.nextOf, hlevel]

/-- The stop state is the output of the command 0 (R152, R153). -/
theorem stopOutputs_eq_drive_zero (w : Wiring) : stopOutputs w = drive w (sint32 0#32) := by
  cases w <;> rfl

theorem State.OutputsDriven.nextOf {s : State} (h : s.OutputsDriven) : s.nextOf.OutputsDriven := by
  unfold State.OutputsDriven
  rw [State.nextOf_build]
  refine State.nextOf_forall_axis (P := fun a => ∃ w : Word, a.out = drive s.build.wiring (sint32 w))
    (fun a raw _ => ⟨0#32, stopOutputs_eq_drive_zero _⟩) (fun a en raw cmd ha => ?_) h
  cases cmd with
  | none => exact ha
  | some w => exact ⟨w, rfl⟩

theorem State.Inv.nextOf {s : State} (h : s.Inv) : s.nextOf.Inv :=
  ⟨h.fits.nextOf, h.pos.nextOf, h.home.nextOf, h.out.nextOf⟩

/-- Settles O7: the step is the simultaneous `Next`, which keeps each of the four parts by itself. -/
theorem stepKeepsLegality : Obligations.StepKeepsLegality := by
  unfold Obligations.StepKeepsLegality
  intro s t hs ht
  cases (step_eq_nextOf hs.fits).symm.trans ht
  exact hs.nextOf

/-- Settles O23: a count lands in the range, and nothing but a count and reset changes the position. -/
theorem modPositionStaysInRange : Obligations.ModPositionStaysInRange := by
  unfold Obligations.ModPositionStaysInRange
  constructor
  · intro b _ n a ha
    rw [State.eq_reset_of_resetOf_axis? ha]
    exact sint32_zero_mod_range
  · intro s t hs hpos ht
    cases (step_eq_nextOf hs).symm.trans ht
    exact hpos.nextOf

/-! ### The home flag and its reference level -/

/-- A sampled change makes the flag the negated level; without one, flag and level stay (R130 to R133). -/
theorem AxisState.nextOf_home_hlvlPrev (b : Build) (en : Bool) (raw : AxisLevels) (cmd : Option Word) (a : AxisState) :
    ((a.sample raw).homeN ≠ a.hlvlPrev → (a.nextOf b en raw cmd).home = !(a.nextOf b en raw cmd).hlvlPrev) ∧
    ((a.sample raw).homeN = a.hlvlPrev →
      (a.nextOf b en raw cmd).home = a.home ∧ (a.nextOf b en raw cmd).hlvlPrev = a.hlvlPrev) := by
  constructor
  · intro h
    simp [AxisState.nextOf, h.symm]
  · intro h
    simp [AxisState.nextOf, h]

/-- A reset cycle lowers the flag and the reference level, in any state (R220, R221). -/
theorem State.resetCycle_home_hlvlPrev {s : State} {n : Axis} {a : AxisState} (ha : s.axis? n = some a) :
    ∃ b, s.resetCycle.axis? n = some b ∧ b.home = false ∧ b.hlvlPrev = false := by
  simp [State.resetCycle, ha, AxisState.resetRegs, AxisState.reset]

/-- Settles O28: by whether this cycle samples a change, and if not, whether one has been sampled before. -/
theorem homeFlagIsTheNegatedLevelAfterAChange : Obligations.HomeFlagIsTheNegatedLevelAfterAChange := by
  unfold Obligations.HomeFlagIsTheNegatedLevelAfterAChange
  refine ⟨?_, ?_, ?_⟩
  · intro b n a ha
    rw [State.eq_reset_of_resetOf_axis? ha]
    exact ⟨rfl, rfl⟩
  · intro s n a changed hs hrst ha hflag
    have ht := State.nextOf_axis?_of_not_rst hrst n
    rw [ha, Option.map_some] at ht
    refine ⟨_, _, step_eq_nextOf hs, ht, ?_⟩
    obtain ⟨hchange, hsame⟩ := AxisState.nextOf_home_hlvlPrev s.build
      (s.build.sampleMode = .continuous || pollRequested s.input.req) (s.raw n) (speedCommand s.input.req n) a
    by_cases hlevel : (a.sample (s.raw n)).homeN = a.hlvlPrev
    · obtain ⟨hhome, hhlvl⟩ := hsame hlevel
      simpa [hlevel, hhome, hhlvl] using hflag
    · rw [if_pos (by simp [hlevel])]
      exact hchange hlevel
  · intro s n a hrst ha
    obtain ⟨b, hb, hlow⟩ := State.resetCycle_home_hlvlPrev ha
    exact ⟨_, b, step_of_rst hrst, hb, hlow⟩

/-! ### The way of a pin level through the synchronisers -/

/-- One more cycle of a run, first. -/
theorem run_core_succ {s : State} (hs : s.FitsBuild) (k : Nat) :
    Host.Core.run Sys2Proof.core (k + 1) s = Host.Core.run Sys2Proof.core k s.nextOf := by
  have hstep : Sys2Proof.core.step s = .next s.nextOf := step_eq_nextOf hs
  simp only [Host.Core.run, hstep]

/-- The stages of an axis shift in every cycle, with reset and without (R39, log 4). -/
theorem State.nextOf_axis?_sync {s : State} {n : Axis} {a : AxisState} (ha : s.axis? n = some a) :
    ∃ b, s.nextOf.axis? n = some b ∧ b.sync = (s.raw n :: a.sync).dropLast := by
  cases hrst : s.input.rst with
  | true => exact ⟨_, by rw [State.nextOf_axis?_of_rst hrst, ha, Option.map_some], rfl⟩
  | false => exact ⟨_, by rw [State.nextOf_axis?_of_not_rst hrst, ha, Option.map_some], rfl⟩

/-- A level that stands `k` places before the end of the pins and stages of an axis is its sample `k` cycles on. -/
theorem run_sample_of_getElem? {k i : Nat} {q : AxisLevels} {n : Axis} {s : State} {a : AxisState}
    (hs : s.FitsBuild) (ha : s.axis? n = some a) (hi : i + k = s.build.syncStages)
    (hq : (s.raw n :: a.sync)[i]? = some q) :
    ∃ t b, Host.Core.run Sys2Proof.core k s = .next t ∧ t.FitsBuild ∧ t.axis? n = some b ∧ b.sample (t.raw n) = q := by
  induction k generalizing i s a with
  | zero =>
    have hlast : (s.raw n :: a.sync).length - 1 = i := by rw [List.length_cons, hs.sync_length ha]; omega
    refine ⟨s, a, rfl, hs, ha, Option.some.inj ?_⟩
    rw [AxisState.sample_eq_getLast, List.getLast?_eq_getElem?, hlast, hq]
  | succ k ih =>
    obtain ⟨b, hb, hsync⟩ := State.nextOf_axis?_sync ha
    have hkept : i < (s.raw n :: a.sync).length - 1 := by rw [List.length_cons, hs.sync_length ha]; omega
    have hshifted : (s.nextOf.raw n :: b.sync)[i + 1]? = some q := by
      rw [List.getElem?_cons_succ, hsync, List.getElem?_dropLast, if_pos hkept, hq]
    rw [run_core_succ hs]
    exact ih hs.nextOf hb (by rw [State.nextOf_build]; omega) hshifted

/-- Settles O57: the pins' level stands `SYNC_STAGES` places before the end of the stages (log 4). -/
theorem sampleIsThePinLevelSyncStagesEarlier : Obligations.SampleIsThePinLevelSyncStagesEarlier := by
  unfold Obligations.SampleIsThePinLevelSyncStagesEarlier
  intro s n a hs ha
  obtain ⟨t, b, hrun, ht, hb, hsample⟩ := run_sample_of_getElem? (i := 0) hs ha (Nat.zero_add _) rfl
  refine ⟨t, b, hrun, hb, hsample, fun hrst => ?_⟩
  have hu := State.nextOf_axis?_of_not_rst hrst n
  rw [hb, Option.map_some] at hu
  exact ⟨_, _, step_eq_nextOf ht, hu, congrArg AxisLevels.homeN hsample⟩

end Sys2Proof.Machine
end

section
/-! PROOFS. The register space (R50 to R58): unmapped requests, reads by the address map and what they leave alone, byte lanes, and the bytes an operation can change. -/

namespace Sys2Proof.Machine

/-! ### Unmapped addresses -/

/-- Every address of the map is aligned (R51, R54). -/
theorem toNat_mod_four_of_mem_mappedAddrs {k : NAxes} {addr : Byte} (h : addr ∈ mappedAddrs k) : addr.toNat % 4 = 0 := by
  revert addr
  cases k <;> decide

/-- Settles O44: a misaligned address is not in the map, and an address that is not selects no register. -/
theorem unmappedRequestsReadZeroAndWriteNothing : Obligations.UnmappedRequestsReadZeroAndWriteNothing := by
  unfold Obligations.UnmappedRequestsReadZeroAndWriteNothing
  refine ⟨fun k addr w h => ?_, fun s addr => rfl, fun addr w s => ⟨_, rfl, rfl⟩⟩
  have hmap : addr ∉ mappedAddrs k :=
    h.elim (fun hmis hmem => hmis (toNat_mod_four_of_mem_mappedAddrs hmem)) id
  rw [decode_read, decode_write, (decodeAddr_unmapped k addr).mpr hmap]
  exact ⟨rfl, rfl⟩

/-! ### Reads -/

theorem State.nextOf_rdata_of_not_rst {s : State} (h : s.input.rst = false) : s.nextOf.rdata = s.readData := by
  rw [State.nextOf, if_neg (by simp [h])]

theorem State.Serves.rst_eq_false {s : State} {code : BitVec 9} {w : Word} (h : s.Serves code w) :
    s.input.rst = false :=
  h.left

/-- A read request's data is the word of its address (R11, R51). -/
theorem State.Serves.readData_eq {s : State} {addr : Byte} {w : Word} (h : s.Serves (0#1 ++ addr) w) :
    s.readData = some (s.readWord addr) := by
  obtain ⟨-, hreq⟩ := h
  simp [State.readData, hreq, requestWrites_read, requestAddr_read]

/-- A cycle that serves a read returns the word of its address from before the cycle (R56, R58). -/
theorem State.Serves.nextOf_rdata {s : State} {addr : Byte} {w : Word} (h : s.Serves (0#1 ++ addr) w) :
    s.nextOf.rdata = some (s.readWord addr) := by
  rw [State.nextOf_rdata_of_not_rst h.rst_eq_false, h.readData_eq]

/-- Settles O46: the read data of `Next` is `Read` of the state before the cycle. -/
theorem readsFollowTheAddressMap : Obligations.ReadsFollowTheAddressMap := by
  unfold Obligations.ReadsFollowTheAddressMap
  exact fun s addr w hs hserves => ⟨_, step_eq_nextOf hs, hserves.nextOf_rdata⟩

/-- The POS register of a built axis is its position (R30, R51). -/
theorem State.readWord_axisAddr_pos {s : State} {n : Axis} {a : AxisState} (ha : s.axis? n = some a) :
    s.readWord (axisAddr n .pos) = a.pos := by
  have hword : s.readWord (axisAddr n .pos) = s.axisWord n AxisState.posWord := by cases n <;> rfl
  rw [hword, State.axisWord, ha]
  rfl

/-- Settles O51: the count is in the state after the cycle, and each read returns the position before its own. -/
theorem readDuringACountIsOneCycleStale : Obligations.ReadDuringACountIsOneCycleStale := by
  unfold Obligations.ReadDuringACountIsOneCycleStale
  intro s t n a w w' hs ha hmode haPrev hqa hread ht hread'
  cases (step_eq_nextOf hs).symm.trans ht
  have hnext := State.nextOf_axis?_of_not_rst hread.rst_eq_false n
  rw [ha, Option.map_some] at hnext
  refine ⟨by rw [hread.nextOf_rdata, State.readWord_axisAddr_pos ha], _, step_eq_nextOf hs.nextOf, ?_⟩
  rw [hread'.nextOf_rdata, State.readWord_axisAddr_pos hnext]
  simp [AxisState.nextOf, hmode, haPrev, hqa, countPos]

/-! ### Requests without effect -/

theorem State.FitsBuild.placeRequest {s : State} (hs : s.FitsBuild) (req : Option Request) :
    (s.placeRequest req).FitsBuild := by
  obtain ⟨helev, hsync⟩ := hs
  exact ⟨helev, fun n a ha => hsync n a (by cases n <;> exact ha)⟩

/-- The cycle of a request placed in front: what the request gives it are the sample enable, the commands and the read data. -/
theorem State.nextOf_placeRequest (s : State) (req : Option Request) :
    (s.placeRequest req).nextOf =
      { s.mapAxes (fun n a => a.nextOf s.build (s.build.sampleMode = .continuous || pollRequested req)
          (s.comingPins.level n) (speedCommand req n)) with
        rdata := (s.placeRequest req).readData, pending := s.pending.tail, cycle := s.cycle + 1 } := rfl

/-- A code that is no WR_SPEED's gives no axis a command (R72). -/
theorem speedCommand_of_ne {r : Request} (h₀ : r.code ≠ 0x108#9) (h₁ : r.code ≠ 0x118#9) (n : Axis) :
    speedCommand (some r) n = none := by
  cases n with
  | azimuth => exact if_neg h₀
  | elevation => exact if_neg h₁

/-- Settles O47: such a request gives no command and does not enable sampling, which is all the axes see of it. -/
theorem onlySpeedAndPollWritesHaveEffects : Obligations.OnlySpeedAndPollWritesHaveEffects := by
  unfold Obligations.OnlySpeedAndPollWritesHaveEffects
  intro s r hs h₀ h₁ hpoll
  refine ⟨_, _, step_eq_nextOf (hs.placeRequest _), step_eq_nextOf (hs.placeRequest _), ?_⟩
  have hcmd (n : Axis) : speedCommand (some r) n = speedCommand none n := speedCommand_of_ne h₀ h₁ n
  have hen : (decide (s.build.sampleMode = .continuous) || pollRequested (some r)) =
      (decide (s.build.sampleMode = .continuous) || pollRequested none) := by
    rcases hpoll with hcode | hmode
    · simp [pollRequested, hcode]
    · simp [hmode]
  simp only [SameState, State.nextOf_placeRequest, hcmd, hen]

/-! ### Byte lanes -/

/-- A word is its four lanes. -/
theorem byteLane_append (w : Word) : byteLane w 3 ++ byteLane w 2 ++ byteLane w 1 ++ byteLane w 0 = w := by
  unfold byteLane
  rw [BitVec.extractLsb'_append_extractLsb'_eq_extractLsb' (show 8 * 3 = 8 * 2 + 8 from rfl),
    BitVec.extractLsb'_append_extractLsb'_eq_extractLsb' (show 8 * 2 = 8 * 1 + 8 from rfl),
    BitVec.extractLsb'_append_extractLsb'_eq_extractLsb' (show 8 * 1 = 8 * 0 + 8 from rfl)]
  exact BitVec.extractLsb'_eq_self

/-- The address of byte `k` of an aligned register selects the register and the lane. -/
theorem addr_add_lane {addr : Byte} (h : addr.toNat % 4 = 0) {k : Nat} (hk : k < 4) :
    (addr + BitVec.ofNat 8 k) &&& 0xFC#8 = addr ∧ (addr + BitVec.ofNat 8 k).toNat % 4 = k := by
  revert addr
  interval_cases k <;> decide

/-- Byte `k` of an aligned register is lane `k` of its word (R55). -/
theorem State.readByte_add (s : State) {addr : Byte} (h : addr.toNat % 4 = 0) {k : Nat} (hk : k < 4) :
    s.readByte (addr + BitVec.ofNat 8 k) = byteLane (s.readWord addr) k := by
  obtain ⟨hreg, hlane⟩ := addr_add_lane h hk
  rw [State.readByte, hreg, hlane]

/-- Settles O48: each byte is a lane, and the lanes make the word. -/
theorem bytesAreLittleEndianLanes : Obligations.BytesAreLittleEndianLanes := by
  unfold Obligations.BytesAreLittleEndianLanes
  intro s addr h
  have hlane := @State.readByte_add s addr h
  have h0 : s.readByte addr = byteLane (s.readWord addr) 0 := by simpa using hlane (k := 0) (by decide)
  rw [hlane (k := 3) (by decide), hlane (k := 2) (by decide), hlane (k := 1) (by decide), h0, byteLane_append]

/-! ### The frame over the register space -/

@[simp] theorem State.answer_readByte (s : State) (r : Option Word) (addr : Byte) :
    (s.answer r).readByte addr = s.readByte addr := rfl

theorem State.axisWord_mapAxes {s : State} {g : Axis → AxisState → AxisState} {n : Axis} {f : AxisState → Word}
    (h : ∀ a, f (g n a) = f a) : (s.mapAxes g).axisWord n f = s.axisWord n f := by
  unfold State.axisWord
  rw [State.mapAxes_axis?]
  cases s.axis? n with
  | none => rfl
  | some a => exact h a

/-- A word reads the same after an update of the axes that keeps what its address shows. -/
theorem State.readWord_mapAxes {s : State} {g : Axis → AxisState → AxisState} {addr : Byte}
    (hpos : ∀ n, addr = axisAddr n .pos → ∀ a, (g n a).posWord = a.posWord)
    (hstat : ∀ n, addr = axisAddr n .stat → ∀ a, (g n a).statWord = a.statWord)
    (hdrv : ∀ n, addr = axisAddr n .drv → ∀ a, (g n a).drvWord = a.drvWord) :
    (s.mapAxes g).readWord addr = s.readWord addr := by
  have haddr {b : Byte} (h : addr.toNat = b.toNat) : addr = b := BitVec.eq_of_toNat_eq h
  unfold State.readWord
  split
  case h_1 h => exact State.axisWord_mapAxes (hpos .azimuth (haddr h))
  case h_2 h => exact State.axisWord_mapAxes (hstat .azimuth (haddr h))
  case h_3 h => exact State.axisWord_mapAxes (hdrv .azimuth (haddr h))
  case h_4 h => exact State.axisWord_mapAxes (hpos .elevation (haddr h))
  case h_5 h => exact State.axisWord_mapAxes (hstat .elevation (haddr h))
  case h_6 h => exact State.axisWord_mapAxes (hdrv .elevation (haddr h))
  case h_7 => rfl
  case h_8 => rfl

/-- An operation on one axis keeps every byte outside the registers in which it changes the axis's words. -/
theorem State.readByte_updateAxis {s : State} {n : Axis} {f : AxisState → AxisState} {addr : Byte}
    (hpos : addr &&& 0xFC#8 = axisAddr n .pos → ∀ a, (f a).posWord = a.posWord)
    (hstat : addr &&& 0xFC#8 = axisAddr n .stat → ∀ a, (f a).statWord = a.statWord)
    (hdrv : addr &&& 0xFC#8 = axisAddr n .drv → ∀ a, (f a).drvWord = a.drvWord) :
    (s.updateAxis n f).readByte addr = s.readByte addr := by
  have onAxis {w : AxisState → Word} (m : Axis) (h : m = n → ∀ a, w (f a) = w a) (a : AxisState) :
      w (if m = n then f a else a) = w a := by
    split
    · exact h ‹_› a
    · rfl
  rw [State.updateAxis_eq_mapAxes, State.readByte, State.readWord_mapAxes]
  · rfl
  · exact fun m haddr => onAxis m (fun hm => hpos (hm ▸ haddr))
  · exact fun m haddr => onAxis m (fun hm => hstat (hm ▸ haddr))
  · exact fun m haddr => onAxis m (fun hm => hdrv (hm ▸ haddr))

/-- New outputs show in DRV alone (R33). -/
theorem State.readByte_driveAxis {s : State} {n : Axis} {addr : Byte} (h : addr &&& 0xFC#8 ≠ axisAddr n .drv)
    (o : Outputs) : (s.driveAxis n o).readByte addr = s.readByte addr :=
  State.readByte_updateAxis (fun _ _ => rfl) (fun _ _ => rfl) (fun hdrv => absurd hdrv h)

/-- A home row shows in STAT alone (R31). -/
theorem State.readByte_latch {s : State} {n : Axis} {addr : Byte} (h : addr &&& 0xFC#8 ≠ axisAddr n .stat)
    (act : HomeAction) : (s.latch n act).readByte addr = s.readByte addr :=
  State.readByte_updateAxis (fun _ a => a.applyHome_pos act) (fun hstat => absurd hstat h)
    (fun _ a => by rw [AxisState.drvWord, AxisState.drvWord, AxisState.applyHome_out])

theorem AxisState.applyQd_drvWord (a : AxisState) (w : WrapMode) (act : QdAction) :
    (a.applyQd w act).drvWord = a.drvWord := by
  rw [AxisState.drvWord, AxisState.drvWord, AxisState.applyQd_out]

/-- A quadrature row shows in STAT, and in POS where it counts (R30, R31). -/
theorem State.readByte_track {s : State} {n : Axis} {addr : Byte} {act : QdAction}
    (hpos : addr &&& 0xFC#8 = axisAddr n .pos → ∀ a : AxisState, (a.applyQd s.build.wrapMode act).pos = a.pos)
    (hstat : addr &&& 0xFC#8 ≠ axisAddr n .stat) : (s.track n act).readByte addr = s.readByte addr :=
  State.readByte_updateAxis hpos (fun h => absurd h hstat) (fun _ a => a.applyQd_drvWord _ act)

/-- The phase sample of a WR_POLL shows in POS and STAT alone (R107). -/
theorem State.readByte_samplePhases {s : State} {addr : Byte}
    (h : ∀ n, addr &&& 0xFC#8 ≠ axisAddr n .pos ∧ addr &&& 0xFC#8 ≠ axisAddr n .stat) :
    s.samplePhases.readByte addr = s.readByte addr := by
  rw [State.readByte, State.samplePhases, State.readWord_mapAxes]
  · rfl
  · exact fun n hpos => absurd hpos (h n).left
  · exact fun n hstat => absurd hstat (h n).right
  · exact fun n _ a => a.applyQd_drvWord _ _

/-- Settles O49: by the operation, each with the registers its update of the axes shows in; an answer shows in none. -/
theorem registerSpaceFrame : Obligations.RegisterSpaceFrame := by
  unfold Obligations.RegisterSpaceFrame
  intro i s t addr ht inReg hout
  cases i with
  | rdPos | wrPos | rdStat | wrStat | rdSpeed | rdDrv | wrDrv | rdCfg | wrCfg | rdPoll | rdUnmapped | wrUnmapped | idle =>
    cases ht
    rfl
  | wrSpeed n w | drvStop n c | drvFwd n c | drvRev n c =>
    cases ht
    exact State.readByte_driveAxis hout _
  | qdInc n | qdDec n =>
    cases ht
    obtain ⟨hpos, hstat⟩ := hout
    exact State.readByte_track (fun h => absurd h hpos) hstat
  | qdHoldLow n | qdHoldHigh n =>
    cases ht
    exact State.readByte_track (fun _ _ => rfl) hout
  | homeFall n | homeRise n =>
    cases ht
    exact State.readByte_latch hout _
  | qdNosample n | homeHoldLow n | homeHoldHigh n =>
    cases ht
    exact State.readByte_updateAxis (fun _ _ => rfl) (fun _ _ => rfl) (fun _ _ => rfl)
  | wrPoll w =>
    simp only [exec, execWrPoll] at ht
    split at ht
    · cases ht
      exact State.readByte_samplePhases hout
    · cases ht
      rfl

end Sys2Proof.Machine
end

section
/-! PROOFS. Loaded programs (R79, R227): each cycle of a loaded list meets its own inputs, and each line of a program its own cycle. -/

namespace Sys2Proof.Machine

/-! ### Running the cycles of a loaded list -/

@[simp] theorem State.nextOf_pending (s : State) : s.nextOf.pending = s.pending.tail := by
  unfold State.nextOf
  split <;> rfl

/-- A cycle builds no axis. -/
theorem State.axis?_of_nextOf {s : State} {n : Axis} {b : AxisState} (hb : s.nextOf.axis? n = some b) :
    ∃ a, s.axis? n = some a := by
  cases n with
  | azimuth => exact ⟨_, rfl⟩
  | elevation =>
    have helev : s.nextOf.elevation.isSome = true := Option.isSome_of_eq_some hb
    exact Option.isSome_iff_exists.mp (s.nextOf_elevation_isSome ▸ helev)

/-- A cycle of a list, with the levels that stand on the pins in it. -/
def withPins (c : CycleInput) (p : PinLevels) : CycleInput := { c with pins := p }

/-- The cycles `cs` are to come with the samples `ps`, which reach `SYNC_STAGES` cycles past the last of them: the next
`SYNC_STAGES` samples stand in the stages, newest first, and the others on the pins of the coming cycles (log 14). -/
structure State.Loaded (ps : List PinLevels) (cs : List CycleInput) (s : State) : Prop where
  fits : s.FitsBuild
  samples : ps.length = cs.length + s.build.syncStages
  pins : s.pending = List.zipWith withPins cs (ps.drop s.build.syncStages)
  stages : ∀ n a, s.axis? n = some a → a.sync = ((ps.take s.build.syncStages).map (·.level n)).reverse

theorem heldSamples_length (k : Nat) (cs : List CycleInput) : (heldSamples k cs).length = cs.length + k := by
  simp [heldSamples]

/-- The first of the held samples are those of the cycles. -/
theorem heldSamples_getElem? {k j : Nat} {cs : List CycleInput} {c : CycleInput} (h : cs[j]? = some c) :
    (heldSamples k cs)[j]? = some c.pins := by
  obtain ⟨hj, -⟩ := List.getElem?_eq_some_iff.mp h
  rw [heldSamples, List.getElem?_append_left (by simpa using hj), List.getElem?_map, h]
  rfl

theorem State.load_axis? (cs : List CycleInput) (s : State) (n : Axis) :
    (s.load cs).axis? n = (s.axis? n).map fun a => { a with
      sync := (((heldSamples s.build.syncStages cs).take s.build.syncStages).map (·.level n)).reverse } := by
  cases n <;> rfl

/-- Loading puts the cycles and their held samples there. -/
theorem State.FitsBuild.loaded {s : State} (hs : s.FitsBuild) (cs : List CycleInput) :
    (s.load cs).Loaded (heldSamples s.build.syncStages cs) cs := by
  have hstages (n : Axis) (a : AxisState) (ha : (s.load cs).axis? n = some a) :
      a.sync = (((heldSamples s.build.syncStages cs).take s.build.syncStages).map (·.level n)).reverse := by
    rw [State.load_axis?] at ha
    obtain ⟨b, -, rfl⟩ := Option.map_eq_some_iff.mp ha
    rfl
  refine ⟨⟨?_, fun n a ha => ?_⟩, heldSamples_length _ cs, rfl, hstages⟩
  · obtain ⟨helev, -⟩ := hs
    simpa [State.load] using helev
  · rw [hstages n a ha]
    rw [List.length_reverse, List.length_map, List.length_take, heldSamples_length]
    exact Nat.min_eq_left (Nat.le_add_left ..)

section
variable {p : PinLevels} {ps : List PinLevels} {c : CycleInput} {cs : List CycleInput} {s : State}

/-- A loaded cycle is the oldest pending one, and on its pins is the sample `SYNC_STAGES` places on. -/
theorem State.Loaded.pending_eq (h : s.Loaded (p :: ps) (c :: cs)) :
    ∃ q, (p :: ps)[s.build.syncStages]? = some q ∧
      s.pending = withPins c q :: List.zipWith withPins cs (ps.drop s.build.syncStages) := by
  have hlt : s.build.syncStages < (p :: ps).length := by
    rw [h.samples, List.length_cons]
    omega
  refine ⟨_, List.getElem?_eq_getElem hlt, ?_⟩
  rw [h.pins, List.drop_eq_getElem_cons hlt]
  rfl

/-- A loaded cycle serves its own request and reset. -/
theorem State.Loaded.input_eq (h : s.Loaded (p :: ps) (c :: cs)) :
    s.input.rst = c.rst ∧ s.input.req = c.req := by
  obtain ⟨q, -, hpending⟩ := h.pending_eq
  rw [State.input, hpending]
  exact ⟨rfl, rfl⟩

/-- The pins and the stages of an axis in a loaded cycle are its coming samples, that of the cycle the last. -/
theorem State.Loaded.raw_cons_sync (h : s.Loaded (p :: ps) (c :: cs)) {n : Axis} {a : AxisState}
    (ha : s.axis? n = some a) :
    s.raw n :: a.sync = ((ps.take s.build.syncStages).map (·.level n)).reverse ++ [p.level n] := by
  obtain ⟨q, hq, hpending⟩ := h.pending_eq
  have hraw : s.raw n = q.level n := by
    rw [State.raw, State.input, hpending]
    rfl
  have htake : (p :: ps).take s.build.syncStages ++ [q] = p :: ps.take s.build.syncStages := by
    rw [← List.take_succ_cons, List.take_add_one, hq]
    rfl
  calc s.raw n :: a.sync
      = (((p :: ps).take s.build.syncStages ++ [q]).map (·.level n)).reverse := by
        simp [hraw, h.stages n a ha]
    _ = ((ps.take s.build.syncStages).map (·.level n)).reverse ++ [p.level n] := by
        rw [htake, List.map_cons, List.reverse_cons]

/-- A loaded cycle meets the sample of its own entry (R227). -/
theorem State.Loaded.sample_eq (h : s.Loaded (p :: ps) (c :: cs)) {n : Axis} {a : AxisState}
    (ha : s.axis? n = some a) : a.sample (s.raw n) = p.level n := by
  apply Option.some.inj
  rw [AxisState.sample_eq_getLast, h.raw_cons_sync ha, List.getLast?_concat]

/-- After a loaded cycle the others are to come. -/
theorem State.Loaded.nextOf (h : s.Loaded (p :: ps) (c :: cs)) : s.nextOf.Loaded ps cs := by
  refine ⟨h.fits.nextOf, ?_, ?_, fun n b hb => ?_⟩
  · have hlen := h.samples
    simp only [List.length_cons] at hlen
    rw [State.nextOf_build]
    omega
  · obtain ⟨q, -, hpending⟩ := h.pending_eq
    rw [State.nextOf_build, State.nextOf_pending, hpending, List.tail_cons]
  · obtain ⟨a, ha⟩ := State.axis?_of_nextOf hb
    obtain ⟨b', hb', hsync⟩ := State.nextOf_axis?_sync ha
    cases hb.symm.trans hb'
    rw [hsync, h.raw_cons_sync ha, List.dropLast_concat, State.nextOf_build]

end

/-- After `j` loaded cycles comes cycle `j`, with its own request, reset and sample. -/
theorem State.Loaded.run {ps : List PinLevels} {cs : List CycleInput} {s : State} {j : Nat} {c : CycleInput}
    {p : PinLevels} (h : s.Loaded ps cs) (hc : cs[j]? = some c) (hp : ps[j]? = some p) :
    ∃ t, Host.Core.run Sys2Proof.core j s = .next t ∧ t.input.rst = c.rst ∧ t.input.req = c.req ∧
      ∀ n b, t.axis? n = some b → b.sample (t.raw n) = p.level n := by
  induction cs generalizing ps s j with
  | nil => cases hc
  | cons c' cs ih =>
    cases ps with
    | nil => cases hp
    | cons p' ps =>
      cases j with
      | zero =>
        cases hc
        cases hp
        obtain ⟨hrst, hreq⟩ := h.input_eq
        exact ⟨s, rfl, hrst, hreq, fun n b hb => h.sample_eq hb⟩
      | succ j =>
        rw [run_core_succ h.fits]
        exact ih h.nextOf hc hp

/-- Cycle `j` of a loaded list, with its own request, reset and samples (R79, R227). -/
theorem run_load {s : State} (hs : s.FitsBuild) {cs : List CycleInput} {j : Nat} {c : CycleInput} (hc : cs[j]? = some c) :
    ∃ t, Host.Core.run Sys2Proof.core j (s.load cs) = .next t ∧ t.input.rst = c.rst ∧ t.input.req = c.req ∧
      ∀ n b, t.axis? n = some b → b.sample (t.raw n) = c.pins.level n :=
  (hs.loaded cs).run hc (heldSamples_getElem? hc)

/-! ### The cycle of a program's line -/

theorem level_setLevel (p : PinLevels) (m n : Axis) (q : AxisLevels) :
    (p.setLevel m q).level n = if m = n then q else p.level n := by
  cases m <;> cases n <;> rfl

/-- A line that takes a cycle is its own cycle, with the levels before it (R79). -/
theorem assemble_cons_of_lineCycles {l : Line} (hl : lineCycles l = 1) (p : PinLevels) (ls : List Line) :
    ∃ c, assemble p (l :: ls) = c :: assemble p ls ∧ lineInput l c.rst c.req ∧ c.pins = p := by
  cases l with
  | rd r => exact ⟨_, rfl, ⟨rfl, _, rfl⟩, rfl⟩
  | wr r v => exact ⟨_, rfl, ⟨rfl, rfl⟩, rfl⟩
  | idle => exact ⟨_, rfl, ⟨rfl, rfl⟩, rfl⟩
  | reset => exact ⟨_, rfl, ⟨rfl, rfl⟩, rfl⟩
  | pins => cases hl

/-- Such a line sets no sample. -/
theorem sampleAfter_cons_of_lineCycles {l : Line} (hl : lineCycles l = 1) (n : Axis) (ls : List Line) (q : AxisLevels) :
    sampleAfter n (l :: ls) q = sampleAfter n ls q := by
  cases l with
  | rd | wr | idle | reset => rfl
  | pins => cases hl

/-- A line of a program that takes a cycle is the cycle after those of the lines before it, with the samples they have set. -/
theorem assemble_getElem? (before after : List Line) {l : Line} (hl : lineCycles l = 1) (p : PinLevels) :
    ∃ c, (assemble p (before ++ l :: after))[(before.map lineCycles).sum]? = some c ∧ lineInput l c.rst c.req ∧
      ∀ n, c.pins.level n = sampleAfter n before (p.level n) := by
  induction before generalizing p with
  | nil =>
    obtain ⟨c, hasm, hinput, hpins⟩ := assemble_cons_of_lineCycles hl p after
    exact ⟨c, by simp [hasm], hinput, fun n => by rw [hpins]; rfl⟩
  | cons l' before ih =>
    have ofCycle (hl' : lineCycles l' = 1) : ∃ c,
        (assemble p ((l' :: before) ++ l :: after))[((l' :: before).map lineCycles).sum]? = some c ∧
        lineInput l c.rst c.req ∧ ∀ n, c.pins.level n = sampleAfter n (l' :: before) (p.level n) := by
      obtain ⟨c, hc, hinput, hpins⟩ := ih p
      obtain ⟨c', hasm, -, -⟩ := assemble_cons_of_lineCycles hl' p (before ++ l :: after)
      refine ⟨c, ?_, hinput, fun n => by rw [hpins, sampleAfter_cons_of_lineCycles hl']⟩
      rw [List.cons_append, hasm, List.map_cons, List.sum_cons, hl', Nat.add_comm, List.getElem?_cons_succ, hc]
    cases l' with
    | rd | wr | idle | reset => exact ofCycle rfl
    | pins m a b h =>
      obtain ⟨c, hc, hinput, hpins⟩ := ih (p.setLevel m (pinsAfter (p.level m) a b h))
      refine ⟨c, ?_, hinput, fun n => ?_⟩
      · rw [List.map_cons, List.sum_cons, lineCycles, Nat.zero_add]
        exact hc
      · rw [hpins, level_setLevel, sampleAfter]
        by_cases hn : m = n
        · subst hn
          rfl
        · rw [if_neg hn, if_neg hn]

/-- Settles O58: the loaded samples move one place per cycle, and a program is the list of its lines' cycles (logs 4, 14). -/
theorem loadedProgramsKeepTheirSamples : Obligations.LoadedProgramsKeepTheirSamples := by
  unfold Obligations.LoadedProgramsKeepTheirSamples
  refine ⟨fun s cs j c hs hc => run_load hs hc, fun s before after l hs hl => ?_, fun n => ?_, rfl, rfl, fun _ => rfl⟩
  · obtain ⟨c, hc, hinput, hpins⟩ := assemble_getElem? before after hl Config.quietPins
    obtain ⟨t, hrun, hrst, hreq, hsample⟩ := run_load hs hc
    refine ⟨t, hrun, hrst ▸ hreq ▸ hinput, fun n b hb => ?_⟩
    rw [hsample n b hb, hpins]
    cases n <;> rfl
  · cases n <;> exact ⟨rfl, rfl, rfl, rfl⟩

end Sys2Proof.Machine
end

section
/-! PROOFS. The encoder against the decoder (R70 to R76): what each format's decoder gives on the encoder's words and the encoder on the decoder's operations, and the operation map. -/

namespace Sys2Proof.Machine

/-! ### Requests: the decoder and the encoder -/

theorem decode_readRequest (k : NAxes) (addr : Byte) :
    decode k (readRequest addr) = readInstr addr (decodeAddr k addr) :=
  decode_read k addr _

theorem decode_writeRequest (k : NAxes) (addr : Byte) (w : Word) :
    decode k (writeRequest addr w) = writeInstr addr w (decodeAddr k addr) :=
  decode_write k addr w

/-- Only the registers of built axes are selected (R71 steps 2 and 3). -/
theorem has_of_decodeAddr_reg {k : NAxes} {addr : Byte} {n : Axis} {r : AxisReg} (h : decodeAddr k addr = .reg n r) :
    k.has n = true := by
  revert addr
  cases k <;> cases n <;> cases r <;> decide

/-- What an address can select in a build with `k` axes (R51, R71). -/
inductive Selects (k : NAxes) : Byte → Target → Prop where
  | reg {n : Axis} (hn : k.has n = true) (r : AxisReg) : Selects k (axisAddr n r) (.reg n r)
  | cfg : Selects k 0x20#8 .cfg
  | poll : Selects k 0x24#8 .poll
  | unmapped {addr : Byte} (h : addr ∉ mappedAddrs k) : Selects k addr .unmapped

theorem selects_decodeAddr (k : NAxes) (addr : Byte) : Selects k addr (decodeAddr k addr) := by
  cases hT : decodeAddr k addr with
  | reg n r => exact addr_of_decodeAddr_reg hT ▸ .reg (has_of_decodeAddr_reg hT) r
  | cfg => exact (decodeAddr_eq_cfg_iff k addr).mp hT ▸ .cfg
  | poll => exact (decodeAddr_eq_poll_iff k addr).mp hT ▸ .poll
  | unmapped => exact .unmapped ((decodeAddr_unmapped k addr).mp hT)

theorem wellFormed_rdUnmapped {k : NAxes} {addr : Byte} :
    wellFormed k (.rdUnmapped addr) = true ↔ addr ∉ mappedAddrs k := by
  simp [wellFormed]

theorem wellFormed_wrUnmapped {k : NAxes} {addr : Byte} {w : Word} :
    wellFormed k (.wrUnmapped addr w) = true ↔ addr ∉ mappedAddrs k := by
  simp [wellFormed]

section
variable {k : NAxes} {addr : Byte} {T : Target}

theorem Selects.wellFormed_readInstr (h : Selects k addr T) : wellFormed k (readInstr addr T) = true := by
  cases h with
  | reg hn r => cases r <;> exact hn
  | cfg | poll => rfl
  | unmapped h => exact wellFormed_rdUnmapped.mpr h

theorem Selects.wellFormed_writeInstr (h : Selects k addr T) (w : Word) :
    wellFormed k (writeInstr addr w T) = true := by
  cases h with
  | reg hn r => cases r <;> exact hn
  | cfg | poll => rfl
  | unmapped h => exact wellFormed_wrUnmapped.mpr h

theorem Selects.encode_readInstr (h : Selects k addr T) : encode (readInstr addr T) = readRequest addr := by
  cases h with
  | reg hn r => cases r <;> rfl
  | cfg | poll | unmapped => rfl

theorem Selects.encode_writeInstr (h : Selects k addr T) (w : Word) :
    encode (writeInstr addr w T) = writeRequest addr w := by
  cases h with
  | reg hn r => cases r <;> rfl
  | cfg | poll | unmapped => rfl

end

/-! ### Command words and their classes -/

theorem clampSpeed_range (s : Int) : -255 ≤ clampSpeed s ∧ clampSpeed s ≤ 255 := by
  rw [clampSpeed_eq]
  split_ifs <;> omega

theorem clampSpeed_of_range {c : Int} (h₁ : -255 ≤ c) (h₂ : c ≤ 255) : clampSpeed c = c := by
  rw [clampSpeed_eq, if_neg (by omega), if_neg (by omega)]

/-- The word of a clamped command selects the command's own class (R76). -/
theorem decode_drive_word32 (k : NAxes) (n : Axis) {c : Int} (h₁ : -255 ≤ c) (h₂ : c ≤ 255) :
    decode k (.drive n (word32 c)) = driveInstr n (driveClass c) := by
  rw [decode, clampSpeed_sint32_word32 h₁ h₂]

/-- Every command has one of the three classes, by its range (R76). -/
theorem driveClass_cases (c : Int) :
    (c ≤ -11 ∧ driveClass c = .reverse c) ∨ ((-10 ≤ c ∧ c ≤ 10) ∧ driveClass c = .stop c) ∨
      (11 ≤ c ∧ driveClass c = .forward c) := by
  rcases (by omega : c ≤ -11 ∨ (-10 ≤ c ∧ c ≤ 10) ∨ 11 ≤ c) with h | h | h
  · exact .inl ⟨h, driveClass_of_reverse h⟩
  · exact .inr (.inl ⟨h, driveClass_of_stop h.1 h.2⟩)
  · exact .inr (.inr ⟨h, driveClass_of_forward h⟩)

/-- The class of a command, as an operation, keeps the command. -/
theorem encode_driveInstr_driveClass (n : Axis) (c : Int) :
    encode (driveInstr n (driveClass c)) = .drive n (word32 c) := by
  rcases driveClass_cases c with ⟨-, h⟩ | ⟨-, h⟩ | ⟨-, h⟩ <;> rw [h] <;> rfl

section
variable {k : NAxes} {n : Axis} {c : Int}

theorem wellFormed_drvStop : wellFormed k (.drvStop n c) = true ↔ k.has n = true ∧ -10 ≤ c ∧ c ≤ 10 := by
  simp [wellFormed]

theorem wellFormed_drvFwd : wellFormed k (.drvFwd n c) = true ↔ k.has n = true ∧ 10 < c ∧ c ≤ 255 := by
  simp [wellFormed]

theorem wellFormed_drvRev : wellFormed k (.drvRev n c) = true ↔ k.has n = true ∧ -255 ≤ c ∧ c < -10 := by
  simp [wellFormed]

/-- The class of a clamped command holds the command in its range (R76). -/
theorem wellFormed_driveInstr_driveClass (hn : k.has n = true) (h₁ : -255 ≤ c) (h₂ : c ≤ 255) :
    wellFormed k (driveInstr n (driveClass c)) = true := by
  rcases driveClass_cases c with ⟨hc, h⟩ | ⟨hc, h⟩ | ⟨hc, h⟩ <;> rw [h, driveInstr]
  · exact wellFormed_drvRev.mpr ⟨hn, h₁, by omega⟩
  · exact wellFormed_drvStop.mpr ⟨hn, hc⟩
  · exact wellFormed_drvFwd.mpr ⟨hn, by omega, h₂⟩

end

/-! ### The rows of the quadrature and home decode tables -/

/-- Each row of R74 keeps the selector's bits. -/
theorem encode_qdInstr_decodeQd (n : Axis) (bits : BitVec 4) : encode (qdInstr n (decodeQd bits)) = .qdec n bits := by
  revert bits
  cases n <;> decide

/-- Each row of R75 is its two bits. -/
theorem encode_homeInstr_decodeHome (n : Axis) (bits : BitVec 2) :
    encode (homeInstr n (decodeHome bits)) = .home n bits := by
  revert bits
  cases n <;> decide

theorem wellFormed_qdInstr {k : NAxes} {n : Axis} (hn : k.has n = true) (act : QdAction) :
    wellFormed k (qdInstr n act) = true := by
  cases act <;> exact hn

theorem wellFormed_homeInstr {k : NAxes} {n : Axis} (hn : k.has n = true) (act : HomeAction) :
    wellFormed k (homeInstr n act) = true := by
  cases act <;> exact hn

/-- Settles O1: an axis register's address selects the register where the axis is built, a selector its row, and the word of
a command of a class's range that class. -/
theorem decodeAfterEncodeIsIdentity : Obligations.DecodeAfterEncodeIsIdentity := by
  unfold Obligations.DecodeAfterEncodeIsIdentity
  intro k i hwf
  cases i with
  | rdPos n | rdStat n | rdSpeed n | rdDrv n =>
    rw [encode, decode_readRequest, decodeAddr_axisAddr hwf, readInstr]
  | wrPos n w | wrStat n w | wrSpeed n w | wrDrv n w =>
    rw [encode, decode_writeRequest, decodeAddr_axisAddr hwf, writeInstr]
  | rdCfg => rw [encode, decode_readRequest, (decodeAddr_eq_cfg_iff k _).mpr rfl, readInstr]
  | wrCfg w => rw [encode, decode_writeRequest, (decodeAddr_eq_cfg_iff k _).mpr rfl, writeInstr]
  | rdPoll => rw [encode, decode_readRequest, (decodeAddr_eq_poll_iff k _).mpr rfl, readInstr]
  | wrPoll w => rw [encode, decode_writeRequest, (decodeAddr_eq_poll_iff k _).mpr rfl, writeInstr]
  | rdUnmapped addr =>
    rw [encode, decode_readRequest, (decodeAddr_unmapped k addr).mpr (wellFormed_rdUnmapped.mp hwf), readInstr]
  | wrUnmapped addr w =>
    rw [encode, decode_writeRequest, (decodeAddr_unmapped k addr).mpr (wellFormed_wrUnmapped.mp hwf), writeInstr]
  | idle => rfl
  | qdNosample n aPrev qa qb => rw [encode, decode, decodeQd_qdWord, qdInstr]
  | qdInc n | qdDec n | homeFall n | homeRise n | homeHoldLow n | homeHoldHigh n => rfl
  | qdHoldLow n qb => cases qb <;> rfl
  | qdHoldHigh n qa qb => cases qa <;> cases qb <;> rfl
  | drvStop n c =>
    obtain ⟨-, h₁, h₂⟩ := wellFormed_drvStop.mp hwf
    rw [encode, decode_drive_word32 k n (by omega) (by omega), driveClass_of_stop h₁ h₂, driveInstr]
  | drvFwd n c =>
    obtain ⟨-, h₁, h₂⟩ := wellFormed_drvFwd.mp hwf
    rw [encode, decode_drive_word32 k n (by omega) h₂, driveClass_of_forward h₁, driveInstr]
  | drvRev n c =>
    obtain ⟨-, h₁, h₂⟩ := wellFormed_drvRev.mp hwf
    rw [encode, decode_drive_word32 k n h₁ (by omega), driveClass_of_reverse (by omega), driveInstr]

/-- Every encoded operation on built axes decodes to a well-formed operation (R78). -/
theorem wellFormed_decode {k : NAxes} {e : Encoded} (h : e.present k = true) : wellFormed k (decode k e) = true := by
  cases e with
  | bus req =>
    rcases req with _ | r
    · rfl
    · rcases request_eq_read_or_write r with hr | hr <;> rw [hr]
      · rw [decode_read]
        exact (selects_decodeAddr k _).wellFormed_readInstr
      · rw [decode_write]
        exact (selects_decodeAddr k _).wellFormed_writeInstr _
  | qdec n bits => exact wellFormed_qdInstr h _
  | home n bits => exact wellFormed_homeInstr h _
  | drive n w => exact wellFormed_driveInstr_driveClass h (clampSpeed_range _).1 (clampSpeed_range _).2

/-- A request comes back with its code, and a write with its data (R72). -/
theorem encode_decode_request (k : NAxes) (r : Request) :
    ∃ w, encode (decode k (.bus (some r))) = .bus (some { code := r.code, wdata := w }) ∧
      (requestWrites r = true → w = r.wdata) := by
  rcases request_eq_read_or_write r with hr | hr <;> rw [hr]
  · refine ⟨0#32, ?_, fun hw => ?_⟩
    · rw [decode_read]
      exact (selects_decodeAddr k _).encode_readInstr
    · rw [requestWrites_read] at hw
      cases hw
  · refine ⟨r.wdata, ?_, fun _ => rfl⟩
    rw [decode_write]
    exact (selects_decodeAddr k _).encode_writeInstr _

/-- Settles O2: each operation holds the bits its row leaves open, and a driver class the clamped command. -/
theorem encodeAfterDecodeKeepsTheBits : Obligations.EncodeAfterDecodeKeepsTheBits := by
  unfold Obligations.EncodeAfterDecodeKeepsTheBits
  refine ⟨fun k e => wellFormed_decode, encode_decode_request, fun k => rfl, fun k n bits => ?_, fun k n bits => ?_,
    fun k n w => ⟨?_, ?_⟩⟩
  · exact encode_qdInstr_decodeQd n bits
  · exact encode_homeInstr_decodeHome n bits
  · exact encode_driveInstr_driveClass n _
  · exact decode_drive_word32 k n (clampSpeed_range _).1 (clampSpeed_range _).2

/-! ### The operation map as match and mask -/

/-- `n` of a request code: bit 4 (R72). -/
def codeAxis (code : BitVec 9) : Axis := if code &&& 0x010#9 = 0#9 then .azimuth else .elevation

theorem requestAddr_eq_setWidth (r : Request) : requestAddr r = r.code.setWidth 8 :=
  (BitVec.setWidth_eq_extractLsb' (by decide)).symm

/-- Under the mask of the axis rows a code leaves its axis bit open: it is one of the row's register of the axis of that
bit (R72). -/
theorem code_eq_of_mask {code : BitVec 9} {we : Bool} {reg : AxisReg}
    (h : code &&& 0x1EF#9 = BitVec.ofBool we ++ axisAddr .azimuth reg) :
    code = BitVec.ofBool we ++ axisAddr (codeAxis code) reg := by
  revert code
  cases we <;> cases reg <;> decide

/-- The register address of an axis that is not built is unmapped (R52). -/
theorem decodeAddr_axisAddr_eq (k : NAxes) (n : Axis) (reg : AxisReg) :
    decodeAddr k (axisAddr n reg) = if k.has n then .reg n reg else .unmapped := by
  cases k <;> cases n <;> cases reg <;> rfl

/-- The fields of a request whose code is given as write bit and address (R70). -/
theorem decode_of_code_eq {r : Request} {we : Bool} {addr : Byte} (h : r.code = BitVec.ofBool we ++ addr) (k : NAxes) :
    r.code.setWidth 8 = addr ∧ decode k (.bus (some r)) =
      if we then writeInstr addr r.wdata (decodeAddr k addr) else readInstr addr (decodeAddr k addr) := by
  obtain ⟨code, w⟩ := r
  subst h
  rw [← requestAddr_eq_setWidth ⟨_, w⟩]
  cases we with
  | false => exact ⟨requestAddr_read addr w, decode_read k addr w⟩
  | true => exact ⟨requestAddr_write addr w, decode_write k addr w⟩

/-- A code that matches an axis row is that row's operation where the axis is built, else unmapped (R71 step 3, R72). -/
theorem decode_of_mask {r : Request} {we : Bool} {reg : AxisReg}
    (h : r.code &&& 0x1EF#9 = BitVec.ofBool we ++ axisAddr .azimuth reg) (k : NAxes) :
    decode k (.bus (some r)) =
      if k.has (codeAxis r.code) then
        if we then writeInstr (r.code.setWidth 8) r.wdata (.reg (codeAxis r.code) reg)
        else readInstr (r.code.setWidth 8) (.reg (codeAxis r.code) reg)
      else if we then .wrUnmapped (r.code.setWidth 8) r.wdata else .rdUnmapped (r.code.setWidth 8) := by
  obtain ⟨haddr, hdec⟩ := decode_of_code_eq (code_eq_of_mask h) k
  rw [hdec, haddr, decodeAddr_axisAddr_eq]
  cases k.has (codeAxis r.code) <;> rfl

theorem decode_of_notMem_mappedAddrs {k : NAxes} {r : Request} (h : r.code.setWidth 8 ∉ mappedAddrs k) :
    decode k (.bus (some r)) =
      if r.code &&& 0x100#9 = 0#9 then .rdUnmapped (r.code.setWidth 8) else .wrUnmapped (r.code.setWidth 8) r.wdata := by
  rw [decode, decodeRequest, requestAddr_eq_setWidth, (decodeAddr_unmapped k _).mpr h,
    ← if_congr (requestWrites_eq_false_iff r) rfl rfl]
  cases requestWrites r <;> rfl

/-- A code of no row has an address that the map does not name (R51, R72). -/
theorem setWidth_notMem_mappedAddrs {code : BitVec 9}
    (haxis : (code &&& 0x1EF#9) ∉ [0x000#9, 0x100#9, 0x004#9, 0x104#9, 0x008#9, 0x108#9, 0x00C#9, 0x10C#9])
    (hglobal : code ∉ [0x020#9, 0x120#9, 0x024#9, 0x124#9]) (k : NAxes) : code.setWidth 8 ∉ mappedAddrs k := by
  revert code
  cases k <;> decide

/-- Settles O3: the axis rows, then the global rows, then the codes of no row. -/
theorem requestsDecodeByTheOperationMap : Obligations.RequestsDecodeByTheOperationMap := by
  unfold Obligations.RequestsDecodeByTheOperationMap
  intro k r n addr axisRow globalRow
  have row (we : Bool) (reg : AxisReg) (h : r.code &&& 0x1EF#9 = BitVec.ofBool we ++ axisAddr .azimuth reg) :=
    decode_of_mask h k
  have global (we : Bool) (a : Byte) (h : r.code = BitVec.ofBool we ++ a) := (decode_of_code_eq h k).2
  refine ⟨row false .pos, row true .pos, row false .stat, row true .stat, row false .speed, row true .speed,
    row false .drv, row true .drv, global false 0x20#8, global true 0x20#8, global false 0x24#8, global true 0x24#8,
    fun haxis hglobal => ?_, rfl⟩
  exact decode_of_notMem_mappedAddrs (setWidth_notMem_mappedAddrs haxis hglobal k)

end Sys2Proof.Machine
end

section
/-! PROOFS. The driver classes (R76, R150 to R158) and the quadrature row without a sample (R100), as operations. -/

namespace Sys2Proof.Machine

/-! ### The drive function by class -/

/-- The drive function with its constants written out (R150 to R157). -/
theorem drive_eq (w : Wiring) (s : Int) :
    drive w s =
      if absInt (clampSpeed s) ≤ 10 then stopOutputs w
      else if clampSpeed s > 0 then forwardOutputs w (absInt (clampSpeed s))
      else reverseOutputs w (absInt (clampSpeed s)) := rfl

/-- The outputs of a command are those of its class (R76). -/
theorem drive_eq_classOutputs (w : Wiring) (s : Int) : drive w s = classOutputs w (driveClass (clampSpeed s)) := by
  rw [drive_eq]
  generalize clampSpeed s = c
  have hpos (h : 0 ≤ c) : absInt c = c := if_pos h
  have hneg (h : c < 0) : absInt c = -c := if_neg (by omega)
  rcases driveClass_cases c with ⟨hc, h⟩ | ⟨hc, h⟩ | ⟨hc, h⟩ <;> rw [h, classOutputs]
  · rw [hneg (by omega), if_neg (by omega), if_neg (by omega)]
  · rw [if_pos (by omega)]
  · rw [hpos (by omega), if_neg (by omega), if_pos (by omega)]

theorem drive_of_driveClass {c : Int} (h₁ : -255 ≤ c) (h₂ : c ≤ 255) {cls : DriveClass} (h : driveClass c = cls)
    (w : Wiring) : drive w c = classOutputs w cls := by
  rw [drive_eq_classOutputs, clampSpeed_of_range h₁ h₂, h]

/-! ### An update of one axis -/

theorem State.onlyAxis_updateAxis (s : State) (n : Axis) (f : AxisState → AxisState) : OnlyAxis n s (s.updateAxis n f) :=
  ⟨by simp, fun _ hm => State.updateAxis_axis?_of_ne s n f hm, by simp, by simp, by simp⟩

theorem State.updateAxis_answer (s : State) (n : Axis) (f : AxisState → AxisState) (r : Option Word) :
    (s.answer r).updateAxis n f = (s.updateAxis n f).answer r := by
  cases n <;> rfl

@[simp] theorem State.updateAxis_id (s : State) (n : Axis) : s.updateAxis n (fun a => a) = s := by
  simp [State.updateAxis_eq_mapAxes]

/-! ### The operations -/

/-- The class of a clamped command drives its axis alone, with the outputs of the drive function, in either wiring (R76). -/
theorem exec_driveInstr_of_driveClass {s : State} {n : Axis} {a : AxisState} (ha : s.axis? n = some a) {c : Int}
    (h₁ : -255 ≤ c) (h₂ : c ≤ 255) {cls : DriveClass} (h : driveClass c = cls) :
    ∃ t, exec (driveInstr n cls) s = .next t ∧ OnlyAxis n s t ∧
      t.axis? n = some { a with out := drive s.build.wiring c } ∧
      drive .twoEnable c = classOutputs .twoEnable cls ∧ drive .twoDirection c = classOutputs .twoDirection cls := by
  have hdrive := drive_of_driveClass h₁ h₂ h
  refine ⟨_, exec_driveInstr n cls s, State.onlyAxis_updateAxis s n _, ?_, hdrive _, hdrive _⟩
  rw [State.driveAxis, State.updateAxis_axis?_self, ha, hdrive, Option.map_some]

/-- Settles O33: each class is that of the commands in its range, whose outputs the drive function computes. -/
theorem driverClassesAreTheTable : Obligations.DriverClassesAreTheTable := by
  unfold Obligations.DriverClassesAreTheTable
  refine ⟨fun s n a c ha => ⟨fun h₁ h₂ => ?_, fun h₁ h₂ => ?_, fun h₁ h₂ => ?_⟩,
    fun k n w => ⟨fun h₁ h₂ => ?_, fun h => ?_, fun h => ?_⟩⟩
  · exact exec_driveInstr_of_driveClass ha (by omega) (by omega) (driveClass_of_stop h₁ h₂)
  · exact exec_driveInstr_of_driveClass ha (by omega) h₂ (driveClass_of_forward h₁)
  · exact exec_driveInstr_of_driveClass ha h₁ (by omega) (driveClass_of_reverse h₂)
  · rw [decode, driveClass_of_stop h₁ h₂, driveInstr]
  · rw [decode, driveClass_of_forward h, driveInstr]
  · rw [decode, driveClass_of_reverse h, driveInstr]

/-- Settles O34: the drive function gives the outputs of the class that the command word decodes to. -/
theorem wrSpeedRunsTheSelectedClass : Obligations.WrSpeedRunsTheSelectedClass := by
  unfold Obligations.WrSpeedRunsTheSelectedClass
  intro s n w
  calc exec (.wrSpeed n w) s = .next ((s.driveAxis n (drive s.build.wiring (sint32 w))).answer none) := rfl
    _ = .next ((s.answer none).driveAxis n (classOutputs s.build.wiring (driveClass (clampSpeed (sint32 w))))) := by
      rw [drive_eq_classOutputs, State.driveAxis, State.driveAxis, State.updateAxis_answer]
    _ = exec (decode s.build.nAxes (.drive n w)) (s.answer none) := (exec_driveInstr n _ (s.answer none)).symm

/-- Settles O4: the words are closed, so the decoder computes their operations. -/
theorem writtenOutWordsDecodeRight : Obligations.WrittenOutWordsDecodeRight := by
  unfold Obligations.WrittenOutWordsDecodeRight
  decide

/-- Settles O17: with `en = 0` the tracker's action leaves its axis as it is. -/
theorem qdNosampleChangesNothing : Obligations.QdNosampleChangesNothing := by
  unfold Obligations.QdNosampleChangesNothing
  refine ⟨fun k n aPrev qa qb => ?_, fun s n aPrev qa qb => ?_⟩
  · rw [decode, decodeQd_qdWord, qdInstr]
  · exact congrArg Host.Outcome.next (State.updateAxis_id s n)

end Sys2Proof.Machine
end

section
/-! PROOFS. The quadrature position tracker (R100 to R109, R226): the wrap, the rows of the decode table as operations, the phase sample of a cycle, the poll, and the requests of POS. -/

namespace Sys2Proof.Machine

/-! ### The wrap of a count -/

/-- A wrapped value is in the range of the position register, in either mode (R105, R106). -/
theorem sint32_word32_wrapPos (m : WrapMode) (v : Int) : sint32 (word32 (wrapPos m v)) = wrapPos m v := by
  cases m with
  | mod =>
    have hrange : -1000000 < wrapPos .mod v ∧ wrapPos .mod v < 1000000 := trem_wrapMod_range v
    exact sint32_word32_of_range (by omega) (by omega)
  | native => exact congrArg sint32 (word32_sint32 (word32 v))

theorem sint32_countPos (m : WrapMode) (pos : Position) (d : Int) :
    sint32 (countPos m pos d) = wrapPos m (sint32 pos + d) :=
  sint32_word32_wrapPos m _

/-- Settles O19: the wrapped value is the balanced remainder by 2^32, which differs from `v` by a multiple of it. -/
theorem nativeWrapIsTwosComplement : Obligations.NativeWrapIsTwosComplement := by
  unfold Obligations.NativeWrapIsTwosComplement
  refine ⟨fun v => ⟨sint32_lower _, sint32_upper _, ?_⟩, by decide, by decide⟩
  have hbmod : wrapPos .native v = v.bmod (2 ^ 32) := sint32_word32 v
  exact ⟨v.bdiv (2 ^ 32), hbmod ▸ (Int.bdiv_add_bmod' v (2 ^ 32)).symm⟩

/-! ### The rows of the quadrature decode table -/

/-- A quadrature row writes the position and the reference sample alone (R101 to R104). -/
theorem AxisState.applyQd_eq (a : AxisState) (m : WrapMode) (act : QdAction) :
    a.applyQd m act = { a with pos := (a.applyQd m act).pos, aPrev := (a.applyQd m act).aPrev } := by
  cases act <;> rfl

/-- With `en = 0` the selected row writes nothing, whatever the samples are (R100). -/
theorem AxisState.applyQd_qdAction_false (a : AxisState) (m : WrapMode) (q : AxisLevels) :
    a.applyQd m (a.qdAction false q) = a := by
  rw [AxisState.qdAction, decodeQd_qdWord, AxisState.applyQd]

/-- A quadrature row of a built axis updates that axis and nothing else. -/
theorem exec_qdInstr_axis {s : State} {n : Axis} {a : AxisState} (ha : s.axis? n = some a) (act : QdAction) :
    ∃ t, exec (qdInstr n act) s = .next t ∧ t.axis? n = some (a.applyQd s.build.wrapMode act) ∧ OnlyAxis n s t := by
  refine ⟨_, exec_qdInstr n act s, ?_, State.onlyAxis_updateAxis s n _⟩
  rw [State.track, State.updateAxis_axis?_self, ha, Option.map_some]

/-- Settles O14: both wrap points are values of the wrap. -/
theorem qdIncCountsUp : Obligations.QdIncCountsUp := by
  unfold Obligations.QdIncCountsUp
  refine ⟨fun k n => by rw [decode, decodeQd_qdWord, qdInstr], fun s n a ha => ?_⟩
  obtain ⟨t, ht, haxis, hframe⟩ := exec_qdInstr_axis ha .inc
  have hpos : sint32 (a.applyQd s.build.wrapMode .inc).pos = wrapPos s.build.wrapMode (sint32 a.pos + 1) :=
    sint32_countPos _ _ _
  refine ⟨t, _, ht, haxis, hpos, rfl, AxisState.applyQd_eq _ _ _, hframe, fun hmod h => ?_, fun hnative h => ?_⟩
  · rw [hpos, hmod, h]; rfl
  · rw [hpos, hnative, h]; rfl

/-- Settles O15: zero and both wrap points are values of the wrap. -/
theorem qdDecCountsDown : Obligations.QdDecCountsDown := by
  unfold Obligations.QdDecCountsDown
  refine ⟨fun k n => by rw [decode, decodeQd_qdWord, qdInstr], fun s n a ha => ?_⟩
  obtain ⟨t, ht, haxis, hframe⟩ := exec_qdInstr_axis ha .dec
  have hpos : sint32 (a.applyQd s.build.wrapMode .dec).pos = wrapPos s.build.wrapMode (sint32 a.pos - 1) :=
    sint32_countPos _ _ _
  refine ⟨t, _, ht, haxis, hpos, rfl, AxisState.applyQd_eq _ _ _, hframe, fun h => ?_,
    fun hmod h => ?_, fun hnative h => ?_⟩
  · rw [hpos, h]; cases s.build.wrapMode <;> rfl
  · rw [hpos, hmod, h]; rfl
  · rw [hpos, hnative, h]; rfl

/-- Settles O16: a hold row takes the reference sample, and the reference sample alone. -/
theorem qdHoldOnlyTakesTheReference : Obligations.QdHoldOnlyTakesTheReference := by
  unfold Obligations.QdHoldOnlyTakesTheReference
  refine ⟨fun k n qb => ?_, fun k n qa qb => ?_, fun s n a qb ha => ?_, fun s n a qa qb ha => ?_⟩
  · rw [decode, decodeQd_qdWord, qdInstr]
  · rw [decode, decodeQd_qdWord, qdInstr]
  · exact exec_qdInstr_axis ha (.holdLow qb)
  · exact exec_qdInstr_axis ha (.holdHigh qa qb)

/-! ### The phase sample of a cycle -/

/-- The request is a WR_POLL, whatever its WDATA (R72, R107). -/
theorem pollRequested_iff (req : Option Request) :
    pollRequested req = true ↔ ∃ w, req = some { code := 0x124#9, wdata := w } := by
  cases req with
  | none => simp [pollRequested]
  | some r => obtain ⟨code, wdata⟩ := r; simp [pollRequested]

/-- The sample enable of `Next` in the words of R100. -/
theorem samples_iff (m : SampleMode) (req : Option Request) :
    (decide (m = .continuous) || pollRequested req) = true ↔
      m = .continuous ∨ (m = .polled ∧ ∃ w, req = some { code := 0x124#9, wdata := w }) := by
  rw [← pollRequested_iff]
  cases m <;> simp

/-- The next position and reference sample are those of the row that the axis selects (R74, R101 to R104). -/
theorem AxisState.nextOf_pos (b : Build) (en : Bool) (raw : AxisLevels) (cmd : Option Word) (a : AxisState) :
    (a.nextOf b en raw cmd).pos = (a.applyQd b.wrapMode (a.qdAction en (a.sample raw))).pos :=
  (AxisState.qdAction_pos b.wrapMode en (a.sample raw) a).symm

theorem AxisState.nextOf_aPrev (b : Build) (en : Bool) (raw : AxisLevels) (cmd : Option Word) (a : AxisState) :
    (a.nextOf b en raw cmd).aPrev = (a.applyQd b.wrapMode (a.qdAction en (a.sample raw))).aPrev :=
  (AxisState.qdAction_aPrev b.wrapMode en (a.sample raw) a).symm

/-- Settles O13: the next position and reference sample are those of the row that the samples select, and with `en = 0` they
stay. -/
theorem sampleEnableDecidesSampling : Obligations.SampleEnableDecidesSampling := by
  unfold Obligations.SampleEnableDecidesSampling
  intro s n a hs hrst ha en q
  have hnext := State.nextOf_axis?_of_not_rst hrst n
  rw [ha, Option.map_some] at hnext
  have hen := samples_iff s.build.sampleMode s.input.req
  generalize (decide (s.build.sampleMode = .continuous) || pollRequested s.input.req) = e at hnext hen
  refine ⟨_, _, step_eq_nextOf hs, hnext, fun hoff => ?_, fun hon => ?_⟩
  · have he : e = false := Bool.eq_false_iff.mpr (fun h => hoff (hen.mp h))
    rw [AxisState.nextOf_pos, AxisState.nextOf_aPrev, he, AxisState.applyQd_qdAction_false]
    exact ⟨rfl, rfl⟩
  · have he : e = true := hen.mpr hon
    obtain ⟨u, hu, haxis, -⟩ := exec_qdInstr_axis ha (a.qdAction true q)
    refine ⟨by rw [AxisState.nextOf_aPrev, AxisState.qdAction_aPrev, if_pos he], u, _, hu, haxis, ?_, ?_⟩
    · rw [AxisState.nextOf_pos, he]
    · rw [AxisState.nextOf_aPrev, he]

/-! ### The poll -/

theorem decode_wrPoll : OneCode 0x124#9 .wrPoll := by
  intro k w
  have h := decode_write k 0x24#8 w
  rwa [(decodeAddr_eq_poll_iff k _).mpr rfl] at h

theorem exec_wrPoll_of_polled {s : State} (h : s.build.sampleMode = .polled) (w : Word) :
    exec (.wrPoll w) s = .next (s.samplePhases.answer none) := by
  simp only [exec, execWrPoll, h]

theorem exec_wrPoll_of_continuous {s : State} (h : s.build.sampleMode = .continuous) (w : Word) :
    exec (.wrPoll w) s = .next (s.answer none) := by
  simp only [exec, execWrPoll, h]

theorem State.samplePhases_axis? (s : State) (n : Axis) :
    s.samplePhases.axis? n =
      (s.axis? n).map fun a => a.applyQd s.build.wrapMode (a.qdAction true (a.sample (s.raw n))) := by
  rw [State.samplePhases, State.mapAxes_axis?]

/-- Settles O20: the poll is the row of every axis with `en = 1`; in `CONTINUOUS` mode that is 1 without it. -/
theorem wrPollSamplesEveryAxis : Obligations.WrPollSamplesEveryAxis := by
  unfold Obligations.WrPollSamplesEveryAxis
  refine ⟨decode_wrPoll, fun s w hm => ?_, fun s w hm => ⟨_, exec_wrPoll_of_continuous hm w, rfl⟩, fun s w hs hm => ?_⟩
  · refine ⟨_, exec_wrPoll_of_polled hm w, rfl, rfl, rfl, fun n hn => ?_, fun n a ha => ?_⟩
    · rw [State.answer_axis?, State.samplePhases_axis?, hn, Option.map_none]
    · refine ⟨_, by rw [State.answer_axis?, State.samplePhases_axis?, ha, Option.map_some], ?_, ?_,
        AxisState.applyQd_eq _ _ _⟩
      · rw [AxisState.qdAction_aPrev, if_pos rfl]
      · simp [AxisState.qdAction_pos, countPos]
  · have hcmd (n : Axis) : speedCommand (some { code := 0x124#9, wdata := w }) n = speedCommand none n :=
      speedCommand_of_ne (by simp) (by simp) n
    have hread : (s.placeRequest (some { code := 0x124#9, wdata := w })).readData = (s.placeRequest none).readData :=
      if_pos (requestWrites_write 0x24#8 w)
    rw [step_eq_nextOf (hs.placeRequest _), step_eq_nextOf (hs.placeRequest _)]
    simp only [State.nextOf_placeRequest, hm, hcmd, hread, decide_true, Bool.true_or]

/-- Settles O52: the poll's count is in the state after its cycle, which the next cycle reads. -/
theorem pollThenReadSeesThePoll : Obligations.PollThenReadSeesThePoll := by
  unfold Obligations.PollThenReadSeesThePoll
  intro s t n a w w' hs ha hmode haPrev hqa hpoll ht hread
  cases (step_eq_nextOf hs).symm.trans ht
  have hnext := State.nextOf_axis?_of_not_rst hpoll.rst_eq_false n
  rw [ha, Option.map_some] at hnext
  have hreq : pollRequested s.input.req = true := (pollRequested_iff _).mpr ⟨w, hpoll.right⟩
  refine ⟨_, step_eq_nextOf hs.nextOf, ?_⟩
  rw [hread.nextOf_rdata, State.readWord_axisAddr_pos hnext]
  simp [AxisState.nextOf, hreq, haPrev, hqa, countPos]

/-! ### The requests of an axis register -/

/-- The codes of a register's read, one per axis, the second unmapped in a build with one axis (R52, R72). -/
theorem axisCodes_read (reg : AxisReg) :
    AxisCodes (0#1 ++ axisAddr .azimuth reg) (0#1 ++ axisAddr .elevation reg)
      (fun n _ => readInstr (axisAddr n reg) (.reg n reg)) (fun _ => .rdUnmapped (axisAddr .elevation reg)) := by
  intro w
  simp only [decode_read, decodeAddr_axisAddr_eq]
  exact ⟨rfl, rfl, rfl, rfl⟩

/-- The codes of a register's write, likewise. -/
theorem axisCodes_write (reg : AxisReg) :
    AxisCodes (1#1 ++ axisAddr .azimuth reg) (1#1 ++ axisAddr .elevation reg)
      (fun n w => writeInstr (axisAddr n reg) w (.reg n reg)) (.wrUnmapped (axisAddr .elevation reg)) := by
  intro w
  simp only [decode_write, decodeAddr_axisAddr_eq]
  exact ⟨rfl, rfl, rfl, rfl⟩

/-- A cycle whose request does nothing but answer returns that answer: the rows of the cycle have none (R11). -/
theorem step_rdata_of_exec_request {s : State} {r : Option Word} (hrst : s.input.rst = false)
    (h : exec s.request s = .next (s.answer r)) : ∃ t, step s = .next t ∧ t.rdata = r := by
  have hrequest : exec s.request s = .next ((s.mapAxes fun _ a => a).answer r) := by rw [h, State.mapAxes_id]
  rw [step_of_not_rst hrst, State.cycleActions, runActions, hrequest, andThen_next, runActions_append,
    runActions_trackerActions, andThen_next, runActions_latchActions]
  exact ⟨_, rfl, rfl⟩

/-- An operation that answers with a word of its axis reads it, at once and in its cycle. -/
theorem readsAxis_of_exec {op : Axis → Instr} {f : AxisState → Word}
    (h : ∀ s n, exec (op n) s = .next (s.answer (some (s.axisWord n f)))) : ReadsAxis op f := by
  have hexec (s : State) (n : Axis) (a : AxisState) (ha : s.axis? n = some a) :
      exec (op n) s = .next (s.answer (some (f a))) := by
    rw [h, State.axisWord, ha]
  refine ⟨hexec, fun s n a ha hrst hreq => step_rdata_of_exec_request hrst ?_⟩
  rw [hreq, hexec s n a ha]

/-- Settles O21: the answer of RD_POS is the position of its axis. -/
theorem rdPosReturnsThePosition : Obligations.RdPosReturnsThePosition := by
  unfold Obligations.RdPosReturnsThePosition
  have hword : (fun a : AxisState => word32 (sint32 a.pos)) = AxisState.posWord := funext fun a => word32_sint32 a.pos
  rw [hword]
  exact ⟨axisCodes_read .pos, readsAxis_of_exec fun _ _ => rfl⟩

/-- Settles O22: these writes give no read data, and that is all they do. -/
theorem readOnlyAxisRegistersIgnoreWrites : Obligations.ReadOnlyAxisRegistersIgnoreWrites := by
  unfold Obligations.ReadOnlyAxisRegistersIgnoreWrites
  refine ⟨axisCodes_write .pos, axisCodes_write .stat, axisCodes_write .drv, fun n w => ⟨?_, ?_, ?_⟩⟩
  all_goals exact fun s => ⟨s.answer none, rfl, rfl⟩

end Sys2Proof.Machine
end

section
/-! PROOFS. The home-state latch (R130 to R135): the rows of the home decode table as operations, the level sample of a cycle, and the read of STAT. -/

namespace Sys2Proof.Machine

/-! ### The rows of the home decode table -/

/-- The levels decode to the row that they select (R75). -/
theorem decode_homeWord (k : NAxes) (n : Axis) (hlvlPrev homeN : Level) :
    decode k (.home n (homeWord hlvlPrev homeN)) =
      if hlvlPrev = homeN then (if homeN then .homeHoldHigh n else .homeHoldLow n)
      else if homeN then .homeRise n else .homeFall n := by
  rw [decode, decodeHome_homeWord]
  cases hlvlPrev <;> cases homeN <;> rfl

/-- A home row of a built axis updates that axis and nothing else. -/
theorem exec_homeInstr_axis {s : State} {n : Axis} {a : AxisState} (ha : s.axis? n = some a) (act : HomeAction) :
    ∃ t, exec (homeInstr n act) s = .next t ∧ t.axis? n = some (a.applyHome act) ∧ OnlyAxis n s t := by
  refine ⟨_, exec_homeInstr n act s, ?_, State.onlyAxis_updateAxis s n _⟩
  rw [State.latch, State.updateAxis_axis?_self, ha, Option.map_some]

/-- A row that leaves every axis as it is leaves the state as it is. -/
theorem exec_homeInstr_of_applyHome_eq_self {act : HomeAction} (h : ∀ a : AxisState, a.applyHome act = a)
    (s : State) (n : Axis) : exec (homeInstr n act) s = .next s := by
  rw [exec_homeInstr, State.latch, show AxisState.applyHome act = fun a => a from funext h, State.updateAxis_id]

/-- Settles O24: the row writes the negation of the low level to the flag, whatever the flag was. -/
theorem homeFallSetsTheFlag : Obligations.HomeFallSetsTheFlag := by
  unfold Obligations.HomeFallSetsTheFlag
  exact ⟨fun k n => decode_homeWord k n true false, fun _ _ _ ha => exec_homeInstr_axis ha .fall⟩

/-- Settles O25: the row writes the negation of the high level to the flag, whatever the flag was. -/
theorem homeRiseClearsTheFlag : Obligations.HomeRiseClearsTheFlag := by
  unfold Obligations.HomeRiseClearsTheFlag
  exact ⟨fun k n => decode_homeWord k n false true, fun _ _ _ ha => exec_homeInstr_axis ha .rise⟩

/-- Settles O26: neither hold row writes an element of its axis. -/
theorem homeHoldChangesNothing : Obligations.HomeHoldChangesNothing := by
  unfold Obligations.HomeHoldChangesNothing
  exact ⟨fun k n => ⟨decode_homeWord k n false false, decode_homeWord k n true true⟩,
    fun s n => ⟨exec_homeInstr_of_applyHome_eq_self (act := .holdLow) (fun _ => rfl) s n,
      exec_homeInstr_of_applyHome_eq_self (act := .holdHigh) (fun _ => rfl) s n⟩⟩

/-! ### The level sample of a cycle -/

/-- The next reference level is the sample, whatever the sample enable and the speed command are (R133, R134). -/
theorem AxisState.nextOf_hlvlPrev (b : Build) (en : Bool) (raw : AxisLevels) (cmd : Option Word) (a : AxisState) :
    (a.nextOf b en raw cmd).hlvlPrev = (a.sample raw).homeN := rfl

/-- Settles O27: the cycle is the simultaneous `Next`, whose flag turns on a sampled change alone. -/
theorem latchSamplesEveryCycle : Obligations.LatchSamplesEveryCycle := by
  unfold Obligations.LatchSamplesEveryCycle
  intro s n a hs hrst ha
  have hnext := State.nextOf_axis?_of_not_rst hrst n
  rw [ha, Option.map_some] at hnext
  obtain ⟨hchange, hsame⟩ := AxisState.nextOf_home_hlvlPrev s.build
    (s.build.sampleMode = .continuous || pollRequested s.input.req) (s.raw n) (speedCommand s.input.req n) a
  rw [AxisState.nextOf_hlvlPrev] at hchange
  exact ⟨_, _, step_eq_nextOf hs, hnext, AxisState.nextOf_hlvlPrev _ _ _ _ a, hchange, fun h => (hsame h).left⟩

/-! ### The read of STAT -/

/-- The STAT word is the sum of its three fields (R31). -/
theorem AxisState.statWord_eq (a : AxisState) :
    a.statWord =
      BitVec.ofNat 32 (wordOfFields [(0, levelNat a.home), (1, levelNat a.aPrev), (2, levelNat a.hlvlPrev)]) := by
  rw [AxisState.statWord]
  cases a.home <;> cases a.aPrev <;> cases a.hlvlPrev <;> rfl

/-- Settles O29: the answer of RD_STAT is the STAT word of its axis. -/
theorem rdStatReturnsTheFlag : Obligations.RdStatReturnsTheFlag := by
  unfold Obligations.RdStatReturnsTheFlag
  simp only [← AxisState.statWord_eq]
  exact ⟨axisCodes_read .stat, readsAxis_of_exec fun _ _ => rfl⟩

end Sys2Proof.Machine
end

section
/-! PROOFS. The motor driver (R150 to R165): the drive function by the range of the command, the requests of SPEED and DRV, the pins, and the outputs over the cycles. -/

namespace Sys2Proof.Machine

/-! ### The clamped command -/

theorem clampSpeed_of_lt {s : Int} (h : s < -255) : clampSpeed s = -255 := by
  rw [clampSpeed_eq, if_pos h]

theorem clampSpeed_of_gt {s : Int} (h : 255 < s) : clampSpeed s = 255 := by
  rw [clampSpeed_eq, if_neg (by omega), if_pos h]

/-- The clamp keeps a command on its side of every bound inside the range, those of the deadzone among them (R150, R151). -/
theorem le_clampSpeed_iff {s b : Int} (h₁ : -255 < b) (h₂ : b ≤ 255) : b ≤ clampSpeed s ↔ b ≤ s := by
  rw [clampSpeed_eq]
  split_ifs <;> omega

theorem absInt_eq_abs (x : Int) : absInt x = |x| := by
  unfold absInt
  split
  · exact (abs_of_nonneg ‹_›).symm
  · exact (abs_of_neg (by omega)).symm

/-- Settles O30: the clamp cuts at its two bounds, and the magnitude is an absolute value. -/
theorem speedIsClamped : Obligations.SpeedIsClamped := by
  unfold Obligations.SpeedIsClamped
  intro s
  obtain ⟨hlo, hhi⟩ := clampSpeed_range s
  rw [absInt_eq_abs]
  exact ⟨hlo, hhi, abs_nonneg _, abs_le.mpr ⟨hlo, hhi⟩, clampSpeed_of_range, clampSpeed_of_lt, clampSpeed_of_gt⟩

/-! ### The drive function by the range of the command -/

theorem drive_of_stop {s : Int} (h₁ : -10 ≤ s) (h₂ : s ≤ 10) (w : Wiring) : drive w s = stopOutputs w :=
  drive_of_driveClass (by omega) (by omega) (driveClass_of_stop h₁ h₂) w

theorem drive_of_forward {s : Int} (h : 11 ≤ s) (w : Wiring) : drive w s = forwardOutputs w (clampSpeed s) := by
  rw [drive_eq_classOutputs, driveClass_of_forward ((le_clampSpeed_iff (by decide) (by decide)).mpr h), classOutputs]

theorem drive_of_reverse {s : Int} (h : s ≤ -11) (w : Wiring) : drive w s = reverseOutputs w (-clampSpeed s) := by
  have hc : ¬ -10 ≤ clampSpeed s := (le_clampSpeed_iff (by decide) (by decide)).not.mpr (by omega)
  rw [drive_eq_classOutputs, driveClass_of_reverse (by omega), classOutputs]

/-- Commands that clamp to one value give the same outputs (R150). -/
theorem drive_congr {s u : Int} (h : clampSpeed s = clampSpeed u) (w : Wiring) : drive w s = drive w u := by
  rw [drive_eq_classOutputs, drive_eq_classOutputs, h]

theorem drive_of_lt {s : Int} (h : s < -255) (w : Wiring) : drive w s = drive w (-255) :=
  drive_congr (clampSpeed_of_lt h) w

theorem drive_of_gt {s : Int} (h : 255 < s) (w : Wiring) : drive w s = drive w 255 :=
  drive_congr (clampSpeed_of_gt h) w

/-- A duty value of 8 bits is its code. -/
theorem toNat_dutyCode {d : Int} (h₁ : 0 ≤ d) (h₂ : d ≤ 255) : ((dutyCode d).toNat : Int) = d := by
  rw [dutyCode, BitVec.toNat_ofInt]
  omega

/-- Settles O31: the commands of the deadzone are of the stop class. -/
theorem deadzoneGivesTheStopState : Obligations.DeadzoneGivesTheStopState := by
  unfold Obligations.DeadzoneGivesTheStopState
  exact fun s h₁ h₂ => ⟨drive_of_stop h₁ h₂ .twoEnable, drive_of_stop h₁ h₂ .twoDirection⟩

/-- Settles O32: inside the clamp's range a command is its own clamped value, and its duty fits the 8-bit code. -/
theorem motionGivesDirectionAndDuty : Obligations.MotionGivesDirectionAndDuty := by
  unfold Obligations.MotionGivesDirectionAndDuty
  refine fun s => ⟨fun h₁ h₂ => ?_, fun h₁ h₂ => ?_, drive_of_gt, drive_of_lt⟩
  · have hdrive (w : Wiring) : drive w s = forwardOutputs w s := by
      rw [drive_of_forward h₁, clampSpeed_of_range (by omega) h₂]
    rw [hdrive, hdrive]
    have hduty : ((dutyCode (255 - s)).toNat : Int) = 255 - s := toNat_dutyCode (by omega) (by omega)
    exact ⟨⟨rfl, rfl, hduty⟩, rfl, rfl, toNat_dutyCode (by omega) h₂⟩
  · have hdrive (w : Wiring) : drive w s = reverseOutputs w (-s) := by
      rw [drive_of_reverse h₂, clampSpeed_of_range h₁ (by omega)]
    have hduty : ((dutyCode (-s)).toNat : Int) = -s := toNat_dutyCode (by omega) (by omega)
    rw [hdrive, hdrive]
    exact ⟨⟨rfl, rfl, hduty⟩, rfl, rfl, hduty⟩

/-! ### The directions -/

/-- The drive function's outputs, by the range of the command. -/
theorem drive_cases (s : Int) :
    (s ≤ -11 ∧ ∀ w, drive w s = reverseOutputs w (-clampSpeed s)) ∨
      ((-10 ≤ s ∧ s ≤ 10) ∧ ∀ w, drive w s = stopOutputs w) ∨
      (11 ≤ s ∧ ∀ w, drive w s = forwardOutputs w (clampSpeed s)) := by
  rcases (by omega : s ≤ -11 ∨ (-10 ≤ s ∧ s ≤ 10) ∨ 11 ≤ s) with h | ⟨h₁, h₂⟩ | h
  · exact .inl ⟨h, drive_of_reverse h⟩
  · exact .inr (.inl ⟨⟨h₁, h₂⟩, drive_of_stop h₁ h₂⟩)
  · exact .inr (.inr ⟨h, drive_of_forward h⟩)

/-- `dir1` is up in the stop state and forward, in either wiring (R152 to R157). -/
theorem drive_dir1 (w : Wiring) (s : Int) : (drive w s).dir1 = decide (-10 ≤ s) := by
  rcases drive_cases s with ⟨hs, h⟩ | ⟨hs, h⟩ | ⟨hs, h⟩ <;> rw [h]
  · rw [decide_eq_false (by omega)]
    cases w <;> rfl
  · rw [decide_eq_true hs.left]
    cases w <;> rfl
  · rw [decide_eq_true (by omega)]
    cases w <;> rfl

/-- In `TWO_DIRECTION`, `dir2` is up in the stop state and in reverse (R153, R156, R157). -/
theorem drive_twoDirection_dir2 (s : Int) : (drive .twoDirection s).dir2 = decide (s ≤ 10) := by
  rcases drive_cases s with ⟨hs, h⟩ | ⟨hs, h⟩ | ⟨hs, h⟩ <;> rw [h]
  · rw [decide_eq_true (by omega)]
    rfl
  · rw [decide_eq_true hs.right]
    rfl
  · rw [decide_eq_false (by omega)]
    rfl

/-- In `TWO_DIRECTION` both directions are up exactly in the deadzone (R165). -/
theorem drive_twoDirection_both_iff (s : Int) :
    ((drive .twoDirection s).dir1 = true ∧ (drive .twoDirection s).dir2 = true) ↔ (-10 ≤ s ∧ s ≤ 10) := by
  rw [drive_dir1, drive_twoDirection_dir2, decide_eq_true_iff, decide_eq_true_iff]

/-- Both directions up means no duty (R153, R165). -/
theorem drive_twoDirection_duty_of_both {s : Int} (h₁ : (drive .twoDirection s).dir1 = true)
    (h₂ : (drive .twoDirection s).dir2 = true) : (drive .twoDirection s).duty = 0#8 := by
  obtain ⟨hlo, hhi⟩ := (drive_twoDirection_both_iff s).mp ⟨h₁, h₂⟩
  rw [drive_of_stop hlo hhi]
  rfl

/-- The inverted duty, as a difference of codes (R154). -/
theorem dutyCode_255_sub (m : Int) : dutyCode (255 - m) = 255#8 - BitVec.ofInt 8 m := by
  rw [dutyCode, Int.sub_eq_add_neg, BitVec.ofInt_add, BitVec.ofInt_neg, ← BitVec.sub_eq_add_neg]
  rfl

theorem dutyCode_255_sub_ne {m : Int} (h₁ : 0 < m) (h₂ : m ≤ 255) : dutyCode (255 - m) ≠ 255#8 := by
  intro h
  have hduty : ((dutyCode (255 - m)).toNat : Int) = 255 - m := toNat_dutyCode (by omega) (by omega)
  have hmax : ((255#8).toNat : Int) = 255 := rfl
  rw [h] at hduty
  omega

/-- Settles O41: `dir1` is up from -10 on and the `dir2` of `TWO_DIRECTION` up to 10, so both inside the deadzone alone; and
forward the inverted duty is less than that of the stop state. -/
theorem noDoubleDrive : Obligations.NoDoubleDrive := by
  unfold Obligations.NoDoubleDrive
  refine ⟨drive_twoDirection_both_iff, fun x => drive_twoDirection_duty_of_both, fun x h => ?_, fun x => ?_,
    fun x h₁ h₂ => drive_of_stop h₁ h₂ .twoEnable, fun x h => ?_⟩
  · rw [drive_dir1, drive_twoDirection_dir2, ← decide_not, decide_eq_decide]
    omega
  · rw [drive_dir1, decide_eq_true_iff]
  · have hlo : 11 ≤ clampSpeed x := (le_clampSpeed_iff (by decide) (by decide)).mpr h
    obtain ⟨-, hhi⟩ := clampSpeed_range x
    rw [drive_of_forward h, absInt_eq_abs, abs_of_nonneg (by omega), ← dutyCode_255_sub]
    exact ⟨rfl, dutyCode_255_sub_ne (by omega) hhi⟩

/-! ### WR_SPEED -/

/-- New outputs on a built axis, and nothing else (R158). -/
@[simp] theorem State.driveAxis_axis?_self (s : State) (n : Axis) (o : Outputs) :
    (s.driveAxis n o).axis? n = (s.axis? n).map fun a => { a with out := o } :=
  State.updateAxis_axis?_self s n _

/-- The latest outputs alone count. -/
theorem State.driveAxis_answer_driveAxis (s : State) (n : Axis) (o o' : Outputs) (r : Option Word) :
    ((s.driveAxis n o).answer r).driveAxis n o' = (s.driveAxis n o').answer r := by
  cases n <;> simp [State.driveAxis, State.updateAxis, State.answer, Function.comp_def]

theorem exec_wrSpeed (s : State) (n : Axis) (w : Word) :
    exec (.wrSpeed n w) s = .next ((s.driveAxis n (drive s.build.wiring (sint32 w))).answer none) := rfl

/-- Settles O35: the write updates the outputs of its axis; the least command lies past the clamp. -/
theorem wrSpeedDrivesTheOutputs : Obligations.WrSpeedDrivesTheOutputs := by
  unfold Obligations.WrSpeedDrivesTheOutputs
  refine ⟨axisCodes_write .speed, fun s n a w ha => ⟨_, exec_wrSpeed s n w, ?_, ?_⟩, drive_of_lt (by decide)⟩
  · obtain ⟨hbuild, haxes, -, hpending, hcycle⟩ :=
      State.onlyAxis_updateAxis s n (fun a => { a with out := drive s.build.wiring (sint32 w) })
    exact ⟨hbuild, fun m hm => by cases m <;> exact haxes _ hm, rfl, hpending, hcycle⟩
  · rw [State.answer_axis?, State.driveAxis_axis?_self, ha, Option.map_some]

/-- Settles O39: the outputs of an axis are overwritten as a whole, by a function of the command and the wiring. -/
theorem driverIsStateless : Obligations.DriverIsStateless := by
  unfold Obligations.DriverIsStateless
  refine ⟨fun s u n w hwiring hbuilt => ⟨_, _, exec_wrSpeed s n w, exec_wrSpeed u n w, ?_⟩,
    fun s n w => ⟨_, exec_wrSpeed s n w, ?_⟩⟩
  · simp only [State.answer_axis?, State.driveAxis_axis?_self, Option.map_map, hwiring]
    revert hbuilt
    cases s.axis? n <;> cases u.axis? n <;> simp
  · have hbuild : (s.driveAxis n (drive s.build.wiring (sint32 w))).build = s.build := State.updateAxis_build s n _
    rw [exec_wrSpeed, State.driveAxis_answer_driveAxis, State.answer_build, hbuild]
    rfl

/-! ### The reads of SPEED, POLL and DRV -/

theorem decode_rdPoll : OneCode 0x024#9 (fun _ => .rdPoll) := by
  intro k w
  have h := decode_read k 0x24#8 w
  rwa [(decodeAddr_eq_poll_iff k _).mpr rfl] at h

/-- Settles O36: both reads answer 0, and that is all they do. -/
theorem writeOnlyRegistersReadZero : Obligations.WriteOnlyRegistersReadZero := by
  unfold Obligations.WriteOnlyRegistersReadZero
  exact ⟨axisCodes_read .speed, decode_rdPoll, fun _ _ => rfl, fun _ => rfl⟩

/-- A concatenation as a number: the high part shifted past the low part. -/
theorem toNat_append_eq_add {m n : Nat} (x : BitVec m) (y : BitVec n) : (x ++ y).toNat = x.toNat * 2 ^ n + y.toNat := by
  rw [BitVec.toNat_append, ← Nat.shiftLeft_add_eq_or_of_lt y.isLt, Nat.shiftLeft_eq]

theorem toNat_ofBool_eq_levelNat (b : Level) : (BitVec.ofBool b).toNat = levelNat b := by
  cases b <;> rfl

/-- The DRV word is the sum of its three fields (R33). -/
theorem AxisState.drvWord_eq (a : AxisState) :
    a.drvWord =
      BitVec.ofNat 32 (wordOfFields [(0, levelNat a.out.dir1), (1, levelNat a.out.dir2), (8, a.out.duty.toNat)]) := by
  rw [AxisState.drvWord, ← BitVec.ofNat_toNat]
  congr 1
  simp only [toNat_append_eq_add, toNat_ofBool_eq_levelNat, BitVec.toNat_zero, wordOfFields, List.map_cons, List.map_nil,
    List.sum_cons, List.sum_nil]
  omega

/-- Settles O37: the answer of RD_DRV is the DRV word of its axis. -/
theorem rdDrvReturnsTheOutputs : Obligations.RdDrvReturnsTheOutputs := by
  unfold Obligations.RdDrvReturnsTheOutputs
  simp only [← AxisState.drvWord_eq]
  exact ⟨axisCodes_read .drv, readsAxis_of_exec fun _ _ => rfl⟩

/-! ### The pins and the outputs over the cycles -/

theorem stopOutputs_twoEnable_dir2 {w : Wiring} (h : w = .twoEnable) : (stopOutputs w).dir2 = false := by
  rw [h]
  rfl

/-- `TWO_ENABLE` has no second direction: `dir2` is held 0 (R154, R155, R162). -/
theorem drive_dir2_of_twoEnable {w : Wiring} (hw : w = .twoEnable) (s : Int) : (drive w s).dir2 = false := by
  rw [hw]
  rcases drive_cases s with ⟨-, h⟩ | ⟨-, h⟩ | ⟨-, h⟩ <;> rw [h] <;> rfl

/-- Settles O38: the stop state and every command have `dir2` at 0 in `TWO_ENABLE`, and a cycle without reset and command leaves
it alone. -/
theorem pinsFollowTheWiring : Obligations.PinsFollowTheWiring := by
  unfold Obligations.PinsFollowTheWiring
  refine ⟨fun s n a ha => ⟨fun hw => ?_, fun hw => ?_⟩, fun s t hs hw hheld ht => ?_, fun b n a hw ha => ?_⟩
  · rw [State.pins, ha, hw, Option.map_some, outputPins]
  · rw [State.pins, ha, hw, Option.map_some, outputPins]
  · cases (step_eq_nextOf hs).symm.trans ht
    refine State.nextOf_forall_axis (P := fun a => a.out.dir2 = false)
      (fun a raw _ => stopOutputs_twoEnable_dir2 hw) (fun a en raw cmd ha => ?_) hheld
    cases cmd with
    | none => exact ha
    | some w => exact drive_dir2_of_twoEnable hw (sint32 w)
  · rw [State.eq_reset_of_resetOf_axis? ha]
    exact stopOutputs_twoEnable_dir2 hw

/-- The cycle's speed command of an axis is the WDATA of its write of SPEED (R72). -/
theorem speedCommand_eq_some_iff (req : Option Request) (n : Axis) (w : Word) :
    speedCommand req n = some w ↔ req = some { code := 1#1 ++ axisAddr n .speed, wdata := w } := by
  cases req with
  | none => simp [speedCommand]
  | some r =>
    obtain ⟨code, wdata⟩ := r
    cases n <;> simp [speedCommand, axisAddr]

/-- The next outputs are those of the cycle's command, and without one they stay (R158, R164). -/
theorem AxisState.nextOf_out (b : Build) (en : Bool) (raw : AxisLevels) (cmd : Option Word) (a : AxisState) :
    (∀ w, cmd = some w → (a.nextOf b en raw cmd).out = drive b.wiring (sint32 w)) ∧
    ((∀ w, cmd ≠ some w) → (a.nextOf b en raw cmd).out = a.out) := by
  cases cmd with
  | none => exact ⟨nofun, fun _ => rfl⟩
  | some c => exact ⟨fun w hw => by cases hw; rfl, fun h => absurd rfl (h c)⟩

/-- Settles O40: a reset cycle gives the stop state, which is that of command 0; of the other cycles those that serve a write of
SPEED have a command. -/
theorem outputsAreThoseOfTheLastCommand : Obligations.OutputsAreThoseOfTheLastCommand := by
  unfold Obligations.OutputsAreThoseOfTheLastCommand
  refine ⟨fun b n a ha => ?_, fun s n a hs ha => ?_, fun x => drive_twoDirection_duty_of_both⟩
  · rw [State.eq_reset_of_resetOf_axis? ha]
    exact stopOutputs_eq_drive_zero b.wiring
  · cases hrst : s.input.rst with
    | true =>
      have hnext := State.nextOf_axis?_of_rst hrst n
      rw [ha, Option.map_some] at hnext
      refine ⟨_, _, step_eq_nextOf hs, hnext, fun _ => stopOutputs_eq_drive_zero _, fun w hserves => ?_, nofun⟩
      cases hrst.symm.trans hserves.rst_eq_false
    | false =>
      have hnext := State.nextOf_axis?_of_not_rst hrst n
      rw [ha, Option.map_some] at hnext
      obtain ⟨hcommand, hhold⟩ := AxisState.nextOf_out s.build
        (s.build.sampleMode = .continuous || pollRequested s.input.req) (s.raw n) (speedCommand s.input.req n) a
      have hserves (w : Word) : s.Serves (1#1 ++ axisAddr n .speed) w ↔ speedCommand s.input.req n = some w := by
        rw [speedCommand_eq_some_iff, State.Serves, and_iff_right hrst]
      simp only [hserves]
      exact ⟨_, _, step_eq_nextOf hs, hnext, nofun, hcommand, fun ⟨_, hnone⟩ => hhold hnone⟩

end Sys2Proof.Machine
end

section
/-! PROOFS. The configuration register and the idle cycle (R34, R180, R181, R185). -/

namespace Sys2Proof.Machine

/-! ### The requests of CFG -/

theorem decode_rdCfg : OneCode 0x020#9 (fun _ => .rdCfg) := by
  intro k w
  have h := decode_read k 0x20#8 w
  rwa [(decodeAddr_eq_cfg_iff k _).mpr rfl] at h

theorem decode_wrCfg : OneCode 0x120#9 .wrCfg := by
  intro k w
  have h := decode_write k 0x20#8 w
  rwa [(decodeAddr_eq_cfg_iff k _).mpr rfl] at h

theorem wiringBit_eq (w : Wiring) : wiringBit w = decide (w = .twoDirection) := by cases w <;> rfl

theorem sampleModeBit_eq (m : SampleMode) : sampleModeBit m = decide (m = .continuous) := by cases m <;> rfl

theorem wrapModeBit_eq (m : WrapMode) : wrapModeBit m = decide (m = .native) := by cases m <;> rfl

/-- The number of axes fits its field of CFG (R34). -/
theorem toNat_nAxes_lt_four (k : NAxes) : k.toNat < 4 := by cases k <;> decide

/-- The CFG word is the sum of its fields, two of them gaps (R34). -/
theorem cfgWord_eq (b : Build) :
    cfgWord b = BitVec.ofNat 32 (wordOfFields
      [(0, levelNat (decide (b.wiring = .twoDirection))), (1, levelNat (decide (b.sampleMode = .continuous))),
       (2, levelNat (decide (b.wrapMode = .native))), (4, b.nAxes.toNat), (8, 10), (16, b.syncStages % 256)]) := by
  have haxes := toNat_nAxes_lt_four b.nAxes
  have hdeadzone : (BitVec.ofInt 8 Config.deadzone).toNat = 10 := rfl
  rw [cfgWord, ← BitVec.ofNat_toNat]
  congr 1
  simp only [toNat_append_eq_add, toNat_ofBool_eq_levelNat, hdeadzone, wiringBit_eq, sampleModeBit_eq, wrapModeBit_eq,
    BitVec.toNat_ofNat, wordOfFields, List.map_cons, List.map_nil, List.sum_cons, List.sum_nil]
  omega

/-- Settles O42: the answer of RD_CFG is the CFG word, whose fields are those of the build; the four presets are closed. -/
theorem rdCfgReportsTheBuild : Obligations.RdCfgReportsTheBuild := by
  unfold Obligations.RdCfgReportsTheBuild
  simp only [← cfgWord_eq]
  exact ⟨decode_rdCfg, fun _ => rfl, rfl, rfl, rfl, rfl⟩

/-- Settles O43: the write gives no read data, and that is all it does. -/
theorem wrCfgIsIgnored : Obligations.WrCfgIsIgnored := by
  unfold Obligations.WrCfgIsIgnored
  exact ⟨decode_wrCfg, fun _ s => ⟨s.answer none, rfl, rfl⟩⟩

/-! ### The idle cycle -/

/-- An axis after an idle cycle: no speed command, and a phase sample in `CONTINUOUS` mode alone (R100, R185). -/
theorem State.nextOf_axis?_of_idle {s : State} (hrst : s.input.rst = false) (hreq : s.input.req = none) (n : Axis) :
    s.nextOf.axis? n =
      (s.axis? n).map (AxisState.nextOf s.build (decide (s.build.sampleMode = .continuous)) (s.raw n) none) := by
  rw [State.nextOf_axis?_of_not_rst hrst, hreq, pollRequested, speedCommand, Bool.or_false]

/-- Settles O45: an idle cycle is a cycle of `Next` without a command, whose sample enable is the sample mode. -/
theorem idleHasNoBusEffect : Obligations.IdleHasNoBusEffect := by
  unfold Obligations.IdleHasNoBusEffect
  refine ⟨fun _ => rfl, fun s => ⟨s.answer none, rfl, rfl⟩, fun s n a hs hrst hreq ha => ?_⟩
  have hnext := State.nextOf_axis?_of_idle hrst hreq n
  rw [ha, Option.map_some] at hnext
  refine ⟨_, _, step_eq_nextOf hs, hnext, rfl, AxisState.nextOf_hlvlPrev _ _ _ _ a, if_congr eq_comm rfl rfl,
    fun hpolled => ?_, fun hcontinuous => ?_⟩
  · have hen : decide (s.build.sampleMode = .continuous) = false := by simp [hpolled]
    rw [AxisState.nextOf_pos, AxisState.nextOf_aPrev, hen, AxisState.applyQd_qdAction_false]
    exact ⟨rfl, rfl⟩
  · have hen : decide (s.build.sampleMode = .continuous) = true := decide_eq_true hcontinuous
    rw [hen]
    exact ⟨rfl, by simp [AxisState.nextOf, countPos]⟩

end Sys2Proof.Machine
end

section
/-! PROOFS. No stops and no exceptions (R200, R231), and the independence of the axes (R207). -/

namespace Sys2Proof.Machine

/-- Settles O9: an operation, and a cycle with or without reset, has a next state by its shape. -/
theorem nothingEverStops : Obligations.NothingEverStops := by
  unfold Obligations.NothingEverStops
  constructor
  · intro i s
    obtain ⟨g, r, h⟩ := exec_eq_mapAxes_answer i s
    exact ⟨_, h⟩
  · intro s
    obtain ⟨g, r, h⟩ := step_eq_mapAxes_answer_advance s
    exact ⟨_, h⟩

/-- An axis after a cycle depends on nothing but the build, the axis itself, its pin levels, the reset and the request. -/
theorem State.nextOf_axis?_congr {s u : State} {n : Axis} (hbuild : s.build = u.build) (haxis : s.axis? n = u.axis? n)
    (hrst : s.input.rst = u.input.rst) (hreq : s.input.req = u.input.req) (hraw : s.raw n = u.raw n) :
    s.nextOf.axis? n = u.nextOf.axis? n := by
  cases hr : s.input.rst with
  | true => rw [State.nextOf_axis?_of_rst hr, State.nextOf_axis?_of_rst (hrst ▸ hr), hbuild, haxis, hraw]
  | false => rw [State.nextOf_axis?_of_not_rst hr, State.nextOf_axis?_of_not_rst (hrst ▸ hr), hbuild, haxis, hreq, hraw]

/-- Settles O55: a cycle is the simultaneous `Next`, in which an axis does not read the other. -/
theorem axesAreIndependent : Obligations.AxesAreIndependent := by
  unfold Obligations.AxesAreIndependent
  intro s u n hs hu hbuild haxis hrst hreq hraw
  exact ⟨_, _, step_eq_nextOf hs, step_eq_nextOf hu, State.nextOf_axis?_congr hbuild haxis hrst hreq hraw⟩

end Sys2Proof.Machine
end

section
/-! PROOFS. Reset and the hazards over two cycles (R220, R221, R225): what the registers of an axis in its reset state read, the reset state of every build, the reset cycle, and the read of DRV behind a write of SPEED. -/

namespace Sys2Proof.Machine

/-! ### The registers of a built axis, and of one in its reset state -/

/-- The STAT register of a built axis is its STAT word (R31, R51). -/
theorem State.readWord_axisAddr_stat {s : State} {n : Axis} {a : AxisState} (ha : s.axis? n = some a) :
    s.readWord (axisAddr n .stat) = a.statWord := by
  have hword : s.readWord (axisAddr n .stat) = s.axisWord n AxisState.statWord := by cases n <;> rfl
  rw [hword, State.axisWord, ha]

/-- The DRV register of a built axis is its DRV word (R33, R51). -/
theorem State.readWord_axisAddr_drv {s : State} {n : Axis} {a : AxisState} (ha : s.axis? n = some a) :
    s.readWord (axisAddr n .drv) = a.drvWord := by
  have hword : s.readWord (axisAddr n .drv) = s.axisWord n AxisState.drvWord := by cases n <;> rfl
  rw [hword, State.axisWord, ha]

/-- The outputs of a reset axis are the stop state of the wiring (R152, R153, R221). -/
theorem AxisState.resetRegs_out (b : Build) (a : AxisState) :
    (b.wiring = .twoEnable → (a.resetRegs b).out = { dir1 := true, dir2 := false, duty := 255#8 }) ∧
    (b.wiring = .twoDirection → (a.resetRegs b).out = { dir1 := true, dir2 := true, duty := 0#8 }) := by
  have hout : (a.resetRegs b).out = stopOutputs b.wiring := rfl
  rw [hout]
  exact ⟨fun hw => by rw [hw]; rfl, fun hw => by rw [hw]; rfl⟩

/-- What the registers of an axis in its reset state read (R221). -/
theorem State.readWord_of_resetRegs {t : State} {b : Build} {n : Axis} {a : AxisState}
    (ha : t.axis? n = some (a.resetRegs b)) :
    t.readWord (axisAddr n .pos) = 0x00000000#32 ∧ t.readWord (axisAddr n .stat) = 0x00000000#32 ∧
    (b.wiring = .twoEnable → t.readWord (axisAddr n .drv) = 0x0000FF01#32) ∧
    (b.wiring = .twoDirection → t.readWord (axisAddr n .drv) = 0x00000003#32) := by
  obtain ⟨henable, hdirection⟩ := AxisState.resetRegs_out b a
  rw [State.readWord_axisAddr_pos ha, State.readWord_axisAddr_stat ha, State.readWord_axisAddr_drv ha]
  refine ⟨rfl, AxisState.statWord_eq _, fun hw => ?_, fun hw => ?_⟩
  · rw [AxisState.drvWord, henable hw]
    rfl
  · rw [AxisState.drvWord, hdirection hw]
    rfl

/-! ### The reset cycle -/

/-- The axes after a reset cycle: the registers reset, the synchronisers shifted on (R220, R221, log 4). -/
theorem State.resetCycle_axis? (s : State) (n : Axis) :
    s.resetCycle.axis? n = (s.axis? n).map fun a => (a.shift (s.raw n)).resetRegs s.build := by
  rw [State.resetCycle, State.advance_axis?, State.answer_axis?, State.mapAxes_axis?, Option.map_map]
  rfl

/-- Settles O12: the cycle is the reset cycle alone, in any state, which resets the registers of each axis. -/
theorem resetCycleWins : Obligations.ResetCycleWins := by
  unfold Obligations.ResetCycleWins
  intro s hrst
  refine ⟨_, step_of_rst hrst, rfl, rfl, fun n hn => ?_, fun n a ha => ?_, fun r hreq hread => ?_⟩
  · rw [State.resetCycle_axis?, hn, Option.map_none]
  · have hnext := State.resetCycle_axis? s n
    rw [ha, Option.map_some] at hnext
    obtain ⟨henable, hdirection⟩ := AxisState.resetRegs_out s.build (a.shift (s.raw n))
    obtain ⟨hpos, hstat, hdrvEnable, hdrvDirection⟩ := State.readWord_of_resetRegs hnext
    exact ⟨_, hnext, rfl, rfl, rfl, rfl, henable, hdirection, hpos, hstat, hdrvEnable, hdrvDirection, rfl⟩
  · have hrdata : s.resetCycle.rdata = resetAnswer s.input.req := rfl
    have hwrites : requestWrites r = false := (requestWrites_eq_false_iff r).mpr hread
    rw [hrdata, hreq, resetAnswer, hwrites, if_neg Bool.false_ne_true]

/-! ### A write of SPEED and the cycle after it -/

/-- At the end of a cycle that writes SPEED of a built axis, its outputs are those of the command (R158, R225). -/
theorem State.Serves.nextOf_out_of_speed {s : State} {n : Axis} {w : Word} (hbuilt : (s.axis? n).isSome = true)
    (h : s.Serves (1#1 ++ axisAddr n .speed) w) :
    ∃ b, s.nextOf.axis? n = some b ∧ b.out = drive s.build.wiring (sint32 w) := by
  obtain ⟨a, ha⟩ := Option.isSome_iff_exists.mp hbuilt
  obtain ⟨hrst, hreq⟩ := h
  have hnext := State.nextOf_axis?_of_not_rst hrst n
  rw [ha, Option.map_some, (speedCommand_eq_some_iff _ n w).mpr hreq] at hnext
  exact ⟨_, hnext, rfl⟩

/-- Settles O50: the outputs are in the state after the write's cycle, which drives the pins and which the next cycle reads. -/
theorem speedWriteReadsBackInTheNextCycle : Obligations.SpeedWriteReadsBackInTheNextCycle := by
  unfold Obligations.SpeedWriteReadsBackInTheNextCycle
  intro s n w hs hbuilt hwrite
  obtain ⟨b, hb, hout⟩ := hwrite.nextOf_out_of_speed hbuilt
  refine ⟨_, step_eq_nextOf hs, ?_, fun w' hread => ⟨_, step_eq_nextOf hs.nextOf, ?_⟩⟩
  · rw [State.pins, hb, Option.map_some, hout, State.nextOf_build]
  · rw [hread.nextOf_rdata, State.readWord_axisAddr_drv hb, AxisState.drvWord_eq, hout]

/-! ### The reset state of every build -/

/-- A build resets to the axes it has (R4, R221). -/
theorem State.resetOf_axis? (b : Build) (n : Axis) :
    (State.resetOf b).axis? n = if b.nAxes.has n then some (AxisState.reset b) else none := by
  obtain ⟨nAxes, sampleMode, wrapMode, wiring, syncStages⟩ := b
  cases nAxes <;> cases n <;> rfl

theorem State.resetOf_fitsBuild (b : Build) : (State.resetOf b).FitsBuild := by
  constructor
  · obtain ⟨nAxes, sampleMode, wrapMode, wiring, syncStages⟩ := b
    cases nAxes <;> simp [State.resetOf]
  · intro n a ha
    rw [State.eq_reset_of_resetOf_axis? ha]
    exact List.length_replicate

/-- Settles O8: each of the four parts holds of the state an axis is reset to. -/
theorem resetStateIsLegal : Obligations.ResetStateIsLegal := by
  unfold Obligations.ResetStateIsLegal
  refine ⟨rfl, fun b => ⟨State.resetOf_fitsBuild b, fun _ n a ha => ?_, fun n a ha => ?_, fun n a ha => ?_⟩⟩
  · rw [State.eq_reset_of_resetOf_axis? ha]
    exact sint32_zero_mod_range
  · rw [State.eq_reset_of_resetOf_axis? ha]
    exact fun _ => rfl
  · rw [State.eq_reset_of_resetOf_axis? ha]
    exact ⟨0#32, stopOutputs_eq_drive_zero b.wiring⟩

/-- Settles O11: every built axis is in its reset state, and reads as such. -/
theorem resetStateOfEveryBuild : Obligations.ResetStateOfEveryBuild := by
  unfold Obligations.ResetStateOfEveryBuild
  refine fun b => ⟨fun n => ?_, fun n a ha => ?_⟩
  · rw [State.resetOf_axis?]
    cases b.nAxes.has n <;> rfl
  · cases State.eq_reset_of_resetOf_axis? ha
    obtain ⟨henable, hdirection⟩ := AxisState.resetRegs_out b (AxisState.reset b)
    have hreads := State.readWord_of_resetRegs (a := AxisState.reset b) ha
    exact ⟨rfl, rfl, rfl, rfl, henable, hdirection, hreads⟩

end Sys2Proof.Machine
end

section
/-! PROOFS. Operations on an axis that is not built (log 11): its words read 0, and an update of it is none. -/

namespace Sys2Proof.Machine

/-! ### An axis that is not built -/

section
variable {s : State} {n : Axis} (h : s.axis? n = none)
include h

theorem State.axisWord_of_axis?_eq_none (f : AxisState → Word) : s.axisWord n f = 0#32 := by
  rw [State.axisWord, h]

/-- No built axis is the one that is updated. -/
theorem State.updateAxis_of_axis?_eq_none (f : AxisState → AxisState) : s.updateAxis n f = s := by
  have hself : ∀ m a, s.axis? m = some a → (if m = n then f a else a) = a := fun m a ha =>
    if_neg fun hm : m = n => Option.some_ne_none a (ha.symm.trans (hm ▸ h))
  rw [State.updateAxis_eq_mapAxes, State.mapAxes_congr hself, State.mapAxes_id]

/-! ### The operations there -/

theorem exec_qdInstr_of_axis?_eq_none (act : QdAction) : exec (qdInstr n act) s = .next s := by
  rw [exec_qdInstr, State.track, State.updateAxis_of_axis?_eq_none h]

theorem exec_homeInstr_of_axis?_eq_none (act : HomeAction) : exec (homeInstr n act) s = .next s := by
  rw [exec_homeInstr, State.latch, State.updateAxis_of_axis?_eq_none h]

theorem exec_driveInstr_of_axis?_eq_none (c : DriveClass) : exec (driveInstr n c) s = .next s := by
  rw [exec_driveInstr, State.driveAxis, State.updateAxis_of_axis?_eq_none h]

/-- A read of a register there answers 0, as RD_UNMAPPED does (R183). -/
theorem exec_readInstr_of_axis?_eq_none (addr : Byte) (r : AxisReg) :
    exec (readInstr addr (.reg n r)) s = .next (s.answer (some 0#32)) := by
  have hread (f : AxisState → Word) : Host.Outcome.next (s.answer (some (s.axisWord n f))) =
      (.next (s.answer (some 0#32)) : Host.Outcome State Fault Refusal) := by
    rw [State.axisWord_of_axis?_eq_none h]
  cases r with
  | pos | stat | drv => exact hread _
  | speed => rfl

/-- A write of a register there is ignored, as WR_UNMAPPED is (R184). -/
theorem exec_writeInstr_of_axis?_eq_none (addr : Byte) (w : Word) (r : AxisReg) :
    exec (writeInstr addr w (.reg n r)) s = .next (s.answer none) := by
  cases r with
  | pos | stat | drv => rfl
  | speed =>
    change exec (.wrSpeed n w) s = _
    rw [exec_wrSpeed, State.driveAxis, State.updateAxis_of_axis?_eq_none h]

end

/-- Settles O54: the operations listed are the reads and writes of the axis's registers and the rows of its three tables. -/
theorem absentAxisOperationsDoNothing : Obligations.AbsentAxisOperationsDoNothing := by
  unfold Obligations.AbsentAxisOperationsDoNothing
  intro s n h
  have hread := exec_readInstr_of_axis?_eq_none h 0#8
  have hwrite := exec_writeInstr_of_axis?_eq_none h 0#8
  have hqd := exec_qdInstr_of_axis?_eq_none h
  have hhome := exec_homeInstr_of_axis?_eq_none h
  have hdrive := exec_driveInstr_of_axis?_eq_none h
  simp only [List.forall_mem_cons, List.not_mem_nil, false_imp_iff, implies_true, and_true]
  exact ⟨⟨hread .pos, hread .stat, hread .speed, hread .drv⟩,
    fun w => ⟨hwrite w .pos, hwrite w .stat, hwrite w .speed, hwrite w .drv⟩,
    fun aPrev qa qb => ⟨hqd (.noSample aPrev qa qb), hqd .inc, hqd .dec, hqd (.holdLow qb), hqd (.holdHigh qa qb),
      hhome .fall, hhome .rise, hhome .holdLow, hhome .holdHigh⟩,
    fun c => ⟨hdrive (.stop c), hdrive (.forward c), hdrive (.reverse c)⟩⟩

end Sys2Proof.Machine
end
